-- ==== Sys2Proof/Word.lean ====
section
/-! DEFINITION. The words and numbered resources of the FJX-9140 (R8, R12, R325), and their plainest arithmetic. -/
namespace Sys2Proof

/-- A 32-bit register word (R28). -/
abbrev Word := BitVec 32
/-- A byte. -/
abbrev Byte := BitVec 8
/-- A Stall, 0–15 (ch. 03). -/
abbrev StallId := Fin 16
/-- A PCI Express function: 0–15 is VFn+1 of Stall n, 16 is PF0 (R3). -/
abbrev Fn := Fin 17
/-- A die pair, 0–3 (R12). -/
abbrev Die := Fin 4
/-- A tile, 0–255 (R12). -/
abbrev TileId := Fin 256
/-- A row of 8 tiles: die × 8 + y (ch. 03, The slot schedule). -/
abbrev RowId := Fin 32
/-- A schedule entry of the bank in force (R72). -/
abbrev SlotId := Fin 512
/-- A ring pair of a function (R405). -/
abbrev RingId := Fin 8
/-- An optical port (R12). -/
abbrev PortId := Fin 32
/-- A 128-byte submission descriptor, byte 0 in bits 7:0 (R295, R8). -/
abbrev Desc := BitVec 1024
/-- A 64-byte queue entry, byte 0 in bits 7:0 (ch. 01, R8). -/
abbrev Entry := BitVec 512

/-- The function PF0. -/
abbrev pf0 : Fn := 16
/-- VFn+1, the function that serves Stall n (R3). -/
def vfOf (n : StallId) : Fn := ⟨n.val, by omega⟩
/-- The Stall a VF serves; none for PF0. -/
def stallOf (f : Fn) : Option StallId := if h : f.val < 16 then some ⟨f.val, h⟩ else none

end Sys2Proof
end

