-- ==== Sys2Proof/Syntax.lean ====
section
/-! DEFINITION. The commands the block takes, one constructor of `Instr` per row of spec/opcode_table.json, and the types of their operands. -/
namespace Sys2Proof

/-- The fields of one 64-bit Dythe instruction beside its opcode (Table 4.2). -/
structure DyWord where
  pe  : Bool
  pr  : BitVec 3
  t   : BitVec 4
  d   : BitVec 5
  a   : BitVec 5
  b   : BitVec 5
  i   : Bool
  low : BitVec 32
deriving DecidableEq, Repr

/-- A 32-bit word of a host write (R28): its byte enables and its value. -/
structure BarWord where
  be : BitVec 4
  v  : BitVec 32
deriving DecidableEq, Repr

/-- A host read (R28): its offset, the byte enables of its first word, and those of the words that follow in a larger access. -/
structure BarRead where
  off  : BitVec 28
  be   : BitVec 4
  more : List (BitVec 4)
deriving DecidableEq, Repr

/-- What names an adapter: its number, and the model that it is of (R316). -/
structure AdapterId where
  num   : Nat
  model : Nat
deriving DecidableEq, Repr

/-- A write that arrives in the BCLK of a status clear (R51). -/
structure LateWrite where
  off : BitVec 28
  be  : BitVec 4
  v   : BitVec 32
deriving DecidableEq, Repr

/-- What the module's sensors report at an event: values the part measures and no rule computes (R418, R430, R435, R493).
Voltages in 10 mV, currents in 10 mA, powers in W (`pin` over the Churn, `pinMs` over 1 ms), ripple in mV, energy in mJ, temperatures in °C as two's
complement bytes in the order of Table 17.3, rails in mV and 0.1 A in the order of Table 17.2. -/
structure Sample where
  vin    : BitVec 16 := 4800
  vmin   : BitVec 16 := 4800
  vmax   : BitVec 16 := 4800
  iin    : BitVec 16 := 0
  pin    : BitVec 16 := 0
  pinMs  : BitVec 16 := 0
  ripple : BitVec 32 := 0
  energy : Nat := 0
  bankV  : BitVec 16 := 7200
  bankC  : BitVec 16 := 232
  temps  : List (BitVec 8) := []
  rails  : List (BitVec 16 × BitVec 16) := []
deriving DecidableEq, Repr

/-- The resources that the 64-turn wheel governs (Table 3.19), and the host turns of R403. -/
inductive WheelResource where
  | walkEngine (d : Die) (e : Fin 32)
  | gatherEngine (d : Die) (e : Fin 32)
  | textEngine (d : Die)
  | ringLink (l : Die) (up : Bool)
  | slice (d : Die)
  | flashChannel (c : Fin 128)
  | host
deriving DecidableEq, Repr

/-- Which device read a failed host answer belongs to (R404). -/
inductive HostReadSource where
  | ring (r : RingId)
  | copyIn
deriving DecidableEq, Repr

/-- A 32-byte slot of a port's stream (R369), with the poison mark of a block that it carries part of (R440). -/
structure Slot where
  data : BitVec 256
  mark : Bool
deriving DecidableEq, Repr

/-- KIND of Table 15.3. -/
inductive FlitKind where
  | data | idle | mark | train
deriving DecidableEq, Repr

/-- A flit (R369): the header fields of Table 15.3 and its slots. -/
structure Flit where
  fseq  : BitVec 12
  ack   : BitVec 12
  nak   : Bool
  kind  : FlitKind
  crcls : BitVec 5
  crcnt : BitVec 8
  slots : List Slot
deriving DecidableEq, Repr

/-- What a training state found (Table 15.2): lanes that failed in FEC, and the peer's TRAIN flits of EXCHANGE with its faults, its receive shares (R371) and
the measured round trip. -/
structure TrainInfo where
  faults   : BitVec 8
  peerMod  : BitVec 8
  peerPort : PortId
  widths   : BitVec 3
  shares   : List Nat
  rtt      : BitVec 20
deriving DecidableEq, Repr

/-- What a slice forwards (R373): the packet at the head of a class of an input port, or of the die pair's own packets. -/
inductive PacketSource where
  | port (p : PortId)
  | endpoint (d : Die)
deriving DecidableEq, Repr

inductive EccResult where
  | clean | corrected | uncorrected
deriving DecidableEq, Repr

/-- A message of the recovery protocol (R459): up to 64 bytes of the bundle. -/
structure RecoveryMessage where
  bytes : List (BitVec 8)
  last  : Bool
deriving DecidableEq, Repr

/-- An SPDM request (R471): the measurement it names (0: how many, 0xFF: all), its nonce, whether a signature is asked, and the rest of its bytes. -/
structure SpdmReq where
  index : BitVec 8
  sign  : Bool
  nonce : List (BitVec 8)
  data  : List (BitVec 8)
deriving DecidableEq, Repr

/-- How a start-up phase ended (Table 20.11): its number, whether its check passed, and the tiles that failed their self-test in phase 6. -/
structure PhaseOutcome where
  phase  : Fin 9
  pass   : Bool
  failed : List TileId
deriving DecidableEq, Repr

/-- The commands (R-numbers of spec/opcode_table.json stand at each). -/
inductive Instr where
  /-- REGISTER_WRITE (R49). -/
  | registerWrite (f : Fn) (off : BitVec 28) (w : BarWord) (more : List BarWord)
  /-- STATUS_REGISTER_CLEAR (R36). -/
  | statusRegisterClear (f : Fn) (off : BitVec 28) (v : BitVec 32) (ev : BitVec 24) (late : Option LateWrite)
  /-- GLB_LOCK_WRITE (R38). -/
  | glbLockWrite (v : BitVec 32)
  /-- LOW_HALF_READ (R29). -/
  | lowHalfRead (f : Fn) (x : BarRead)
  /-- SPLIT_VALUE_WRITE (R29). -/
  | splitValueWrite (f : Fn) (off : BitVec 28) (v : BitVec 32)
  /-- GLB_RESET_WARM (R495). -/
  | glbResetWarm
  /-- GLB_RESET_STALL (R497). -/
  | glbResetStall (stalls : BitVec 16)
  /-- FRESHEN (R59). -/
  | freshen (n : StallId)
  /-- DRY_DRAIN (R62). -/
  | dryDrain (n : StallId)
  /-- DRY_CUT (R62). -/
  | dryCut (n : StallId)
  /-- ABORT (R58). -/
  | abort (n : StallId)
  /-- IMAGE_LOAD_DONE (R59). -/
  | imageLoadDone (n : StallId) (poison : Bool)
  /-- FRESHEN_CLEANUP_DONE (R61). -/
  | freshenCleanupDone (n : StallId)
  /-- DRAIN_LIMIT_REACHED (R62). -/
  | drainLimitReached (n : StallId)
  /-- DRY_TILE_SAVE_DONE (R62). -/
  | dryTileSaveDone (n : StallId)
  /-- DRY_WRITEBACK_DONE (R343). -/
  | dryWritebackDone (n : StallId)
  /-- DRY_SCRUB_DONE (R468). -/
  | dryScrubDone (n : StallId)
  /-- CHN_RUN_SET (R71). -/
  | chnRunSet
  /-- CHN_RUN_CLEAR (R71). -/
  | chnRunClear
  /-- CHURN_BOUNDARY (R69). -/
  | churnBoundary (x : Sample)
  /-- SLOT_OPEN (R74). -/
  | slotOpen (e : SlotId)
  /-- SLOT_END (R75). -/
  | slotEnd (e : SlotId)
  /-- SWITCH_COMPLETE (R76). -/
  | switchComplete (row : RowId)
  /-- WHEEL_TURN (R80). -/
  | wheelTurn (r : WheelResource)
  /-- COMMONS_TURN (R81). -/
  | commonsTurn
  /-- TILE_TAKE_ITEM (R130). -/
  | tileTakeItem (l : List TileId)
  /-- TILE_SEARCH_TIMER (R131). -/
  | tileSearchTimer (t : TileId)
  /-- ADD (R90). -/
  | dyAdd (t : TileId) (w : DyWord)
  /-- SUB (R90). -/
  | dySub (t : TileId) (w : DyWord)
  /-- MUL (R90). -/
  | dyMul (t : TileId) (w : DyWord)
  /-- MULH (R90). -/
  | dyMulh (t : TileId) (w : DyWord)
  /-- MULHU (R90). -/
  | dyMulhu (t : TileId) (w : DyWord)
  /-- DIV (R90). -/
  | dyDiv (t : TileId) (w : DyWord)
  /-- DIVU (R90). -/
  | dyDivu (t : TileId) (w : DyWord)
  /-- REM (R90). -/
  | dyRem (t : TileId) (w : DyWord)
  /-- REMU (R90). -/
  | dyRemu (t : TileId) (w : DyWord)
  /-- AND (R90). -/
  | dyAnd (t : TileId) (w : DyWord)
  /-- OR (R90). -/
  | dyOr (t : TileId) (w : DyWord)
  /-- XOR (R90). -/
  | dyXor (t : TileId) (w : DyWord)
  /-- SHL (R90). -/
  | dyShl (t : TileId) (w : DyWord)
  /-- SHR (R90). -/
  | dyShr (t : TileId) (w : DyWord)
  /-- SRA (R90). -/
  | dySra (t : TileId) (w : DyWord)
  /-- MIN (R90). -/
  | dyMin (t : TileId) (w : DyWord)
  /-- MAX (R90). -/
  | dyMax (t : TileId) (w : DyWord)
  /-- MINU (R90). -/
  | dyMinu (t : TileId) (w : DyWord)
  /-- MAXU (R90). -/
  | dyMaxu (t : TileId) (w : DyWord)
  /-- SLT (R90). -/
  | dySlt (t : TileId) (w : DyWord)
  /-- SLTU (R90). -/
  | dySltu (t : TileId) (w : DyWord)
  /-- SEQ (R90). -/
  | dySeq (t : TileId) (w : DyWord)
  /-- LI (R90). -/
  | dyLi (t : TileId) (w : DyWord)
  /-- LHI (R90). -/
  | dyLhi (t : TileId) (w : DyWord)
  /-- POPC (R90). -/
  | dyPopc (t : TileId) (w : DyWord)
  /-- CLZ (R90). -/
  | dyClz (t : TileId) (w : DyWord)
  /-- CTZ (R90). -/
  | dyCtz (t : TileId) (w : DyWord)
  /-- RDINFO (R90). -/
  | dyRdinfo (t : TileId) (w : DyWord)
  /-- RDLC (R90). -/
  | dyRdlc (t : TileId) (w : DyWord)
  /-- LDB (R90). -/
  | dyLdb (t : TileId) (w : DyWord)
  /-- LDH (R90). -/
  | dyLdh (t : TileId) (w : DyWord)
  /-- LDW (R90). -/
  | dyLdw (t : TileId) (w : DyWord)
  /-- LDD (R90). -/
  | dyLdd (t : TileId) (w : DyWord)
  /-- LDBS (R90). -/
  | dyLdbs (t : TileId) (w : DyWord)
  /-- LDHS (R90). -/
  | dyLdhs (t : TileId) (w : DyWord)
  /-- LDWS (R90). -/
  | dyLdws (t : TileId) (w : DyWord)
  /-- STB (R90). -/
  | dyStb (t : TileId) (w : DyWord)
  /-- STH (R90). -/
  | dySth (t : TileId) (w : DyWord)
  /-- STW (R90). -/
  | dyStw (t : TileId) (w : DyWord)
  /-- STD (R90). -/
  | dyStd (t : TileId) (w : DyWord)
  /-- BEQ (R91). -/
  | dyBeq (t : TileId) (w : DyWord)
  /-- BNE (R91). -/
  | dyBne (t : TileId) (w : DyWord)
  /-- BLT (R91). -/
  | dyBlt (t : TileId) (w : DyWord)
  /-- BGE (R91). -/
  | dyBge (t : TileId) (w : DyWord)
  /-- BLTU (R91). -/
  | dyBltu (t : TileId) (w : DyWord)
  /-- BGEU (R91). -/
  | dyBgeu (t : TileId) (w : DyWord)
  /-- JMP (R91). -/
  | dyJmp (t : TileId) (w : DyWord)
  /-- CALL (R91). -/
  | dyCall (t : TileId) (w : DyWord)
  /-- RET (R91). -/
  | dyRet (t : TileId) (w : DyWord)
  /-- LOOP (R92). -/
  | dyLoop (t : TileId) (w : DyWord)
  /-- LBZ (R91). -/
  | dyLbz (t : TileId) (w : DyWord)
  /-- LBNZ (R91). -/
  | dyLbnz (t : TileId) (w : DyWord)
  /-- END (R165). -/
  | dyEnd (t : TileId) (w : DyWord)
  /-- TRAP (R91). -/
  | dyTrap (t : TileId) (w : DyWord)
  /-- NOP (R91). -/
  | dyNop (t : TileId) (w : DyWord)
  /-- VADD (R94). -/
  | dyVadd (t : TileId) (w : DyWord)
  /-- VSUB (R94). -/
  | dyVsub (t : TileId) (w : DyWord)
  /-- VMUL (R94). -/
  | dyVmul (t : TileId) (w : DyWord)
  /-- VFMA (R94). -/
  | dyVfma (t : TileId) (w : DyWord)
  /-- VMIN (R94). -/
  | dyVmin (t : TileId) (w : DyWord)
  /-- VMAX (R94). -/
  | dyVmax (t : TileId) (w : DyWord)
  /-- VABS (R94). -/
  | dyVabs (t : TileId) (w : DyWord)
  /-- VNEG (R94). -/
  | dyVneg (t : TileId) (w : DyWord)
  /-- VAND (R94). -/
  | dyVand (t : TileId) (w : DyWord)
  /-- VOR (R94). -/
  | dyVor (t : TileId) (w : DyWord)
  /-- VXOR (R94). -/
  | dyVxor (t : TileId) (w : DyWord)
  /-- VSHL (R94). -/
  | dyVshl (t : TileId) (w : DyWord)
  /-- VSHR (R94). -/
  | dyVshr (t : TileId) (w : DyWord)
  /-- VSRA (R94). -/
  | dyVsra (t : TileId) (w : DyWord)
  /-- VCVT (R171). -/
  | dyVcvt (t : TileId) (w : DyWord)
  /-- VBCAST (R94). -/
  | dyVbcast (t : TileId) (w : DyWord)
  /-- VEXT (R94). -/
  | dyVext (t : TileId) (w : DyWord)
  /-- VINS (R94). -/
  | dyVins (t : TileId) (w : DyWord)
  /-- VLD (R94). -/
  | dyVld (t : TileId) (w : DyWord)
  /-- VST (R94). -/
  | dyVst (t : TileId) (w : DyWord)
  /-- VGATHER (R94). -/
  | dyVgather (t : TileId) (w : DyWord)
  /-- VSCATTER (R94). -/
  | dyVscatter (t : TileId) (w : DyWord)
  /-- VRED (R94). -/
  | dyVred (t : TileId) (w : DyWord)
  /-- VCMP (R94). -/
  | dyVcmp (t : TileId) (w : DyWord)
  /-- VSEL (R94). -/
  | dyVsel (t : TileId) (w : DyWord)
  /-- VPERM (R94). -/
  | dyVperm (t : TileId) (w : DyWord)
  /-- VSLIDE (R94). -/
  | dyVslide (t : TileId) (w : DyWord)
  /-- VEXP (R94). -/
  | dyVexp (t : TileId) (w : DyWord)
  /-- VRCP (R94). -/
  | dyVrcp (t : TileId) (w : DyWord)
  /-- VRSQRT (R94). -/
  | dyVrsqrt (t : TileId) (w : DyWord)
  /-- VMOV (R94). -/
  | dyVmov (t : TileId) (w : DyWord)
  /-- VBIN (R94). -/
  | dyVbin (t : TileId) (w : DyWord)
  /-- VPAND (R95). -/
  | dyVpand (t : TileId) (w : DyWord)
  /-- VPOR (R95). -/
  | dyVpor (t : TileId) (w : DyWord)
  /-- VPXOR (R95). -/
  | dyVpxor (t : TileId) (w : DyWord)
  /-- VPNOT (R95). -/
  | dyVpnot (t : TileId) (w : DyWord)
  /-- VPFIRST (R95). -/
  | dyVpfirst (t : TileId) (w : DyWord)
  /-- VPCNT (R95). -/
  | dyVpcnt (t : TileId) (w : DyWord)
  /-- MSTL (R148). -/
  | dyMstl (t : TileId) (w : DyWord)
  /-- MSWAP (R149). -/
  | dyMswap (t : TileId) (w : DyWord)
  /-- MMUL (R144). -/
  | dyMmul (t : TileId) (w : DyWord)
  /-- MACST (R173). -/
  | dyMacst (t : TileId) (w : DyWord)
  /-- MACZ (R157). -/
  | dyMacz (t : TileId) (w : DyWord)
  /-- MVX (R162). -/
  | dyMvx (t : TileId) (w : DyWord)
  /-- DMAIN (R99). -/
  | dyDmain (t : TileId) (w : DyWord)
  /-- DMAOUT (R99). -/
  | dyDmaout (t : TileId) (w : DyWord)
  /-- DMAWAIT (R98). -/
  | dyDmawait (t : TileId) (w : DyWord)
  /-- VSORTKV (R219). -/
  | dyVsortkv (t : TileId) (w : DyWord)
  /-- VMERGEKV (R220). -/
  | dyVmergekv (t : TileId) (w : DyWord)
  /-- TOPK (R224). -/
  | dyTopk (t : TileId) (w : DyWord)
  /-- TKMERGE (R229). -/
  | dyTkmerge (t : TileId) (w : DyWord)
  /-- QPUSH (R102). -/
  | dyQpush (t : TileId) (w : DyWord)
  /-- QPOP (R102). -/
  | dyQpop (t : TileId) (w : DyWord)
  /-- SPAWN (R128). -/
  | dySpawn (t : TileId) (w : DyWord)
  /-- AMOADD (R104). -/
  | dyAmoadd (t : TileId) (w : DyWord)
  /-- FENCE (R106). -/
  | dyFence (t : TileId) (w : DyWord)
  /-- WAIT (R102). -/
  | dyWait (t : TileId) (w : DyWord)
  /-- DMA_DONE (R98). -/
  | dmaDone (t : TileId) (tag : Fin 16)
  /-- AMOADD_DONE (R104). -/
  | amoaddDone (t : TileId) (reg : Fin 32)
  /-- MSTL_DONE (R148). -/
  | mstlDone (t : TileId)
  /-- ACTIVITY_RAMP_DONE (R159). -/
  | activityRampDone (t : TileId)
  /-- ARRAY_IDLE_TIMEOUT (R160). -/
  | arrayIdleTimeout (t : TileId)
  /-- MMUL_DONE (R158). -/
  | mmulDone (t : TileId)
  /-- MACST_DONE (R180). -/
  | macstDone (t : TileId)
  /-- MVX_DONE (R164). -/
  | mvxDone (t : TileId)
  /-- KERNEL_BOUND_REACHED (R109). -/
  | kernelBoundReached (t : TileId)
  /-- TILE_QUARANTINE_REQUEST (R139). -/
  | tileQuarantineRequest (t : TileId)
  /-- TILE_UNCORR_ERROR (R139). -/
  | tileUncorrError (t : TileId)
  /-- TILE_CE_LIMIT (R448). -/
  | tileCeLimit (t : TileId) (k : Nat)
  /-- TILE_RELEASE (R141). -/
  | tileRelease (t : TileId)
  /-- TILE_SELFTEST_DONE (R141). -/
  | tileSelftestDone (t : TileId) (pass : Bool)
  /-- DOB_LOAD (R115). -/
  | dobLoad (f : Fn) (r : RingId) (d : Desc)
  /-- TRANSLATION_DONE (R114). -/
  | translationDone (n : StallId) (h : Nat)
  /-- DOB_UNLOAD (R117). -/
  | dobUnload (f : Fn) (r : RingId) (d : Desc)
  /-- REQUEST (R299). -/
  | request (f : Fn) (r : RingId) (d : Desc)
  /-- CANCEL (R319). -/
  | cancel (f : Fn) (r : RingId) (d : Desc)
  /-- DISPATCH (R321). -/
  | dispatch (f : Fn) (r : RingId) (d : Desc)
  /-- DISPATCH_PLACE (R127). -/
  | dispatchPlace (n : StallId) (die : Die)
  /-- PROG_BIND (R302). -/
  | progBind (f : Fn) (r : RingId) (d : Desc)
  /-- PROG_RETIRE (R302). -/
  | progRetire (f : Fn) (r : RingId) (d : Desc)
  /-- MDL_REG (R306). -/
  | mdlReg (f : Fn) (r : RingId) (d : Desc)
  /-- MDL_RETIRE (R306). -/
  | mdlRetire (f : Fn) (r : RingId) (d : Desc)
  /-- ADP_LOAD (R316). -/
  | adpLoad (f : Fn) (r : RingId) (d : Desc)
  /-- ADP_VERSION_RELEASE (R316). -/
  | adpVersionRelease (n : StallId) (a : AdapterId)
  /-- CLT_SET (R318). -/
  | cltSet (f : Fn) (r : RingId) (d : Desc)
  /-- PFX_DROP (R315). -/
  | pfxDrop (f : Fn) (r : RingId) (d : Desc)
  /-- SRV_CFG (R303). -/
  | srvCfg (f : Fn) (r : RingId) (d : Desc)
  /-- TRIGGER_BATCH_PLACE (R304). -/
  | triggerBatchPlace (n : StallId) (die : Die) (stage : Fin 8)
  /-- TRIGGER_MAXWAIT_EXPIRY (R304). -/
  | triggerMaxwaitExpiry (n : StallId) (die : Die) (stage : Fin 8)
  /-- PROMPT_TAKE (R307). -/
  | promptTake (n : StallId) (die : Die)
  /-- GEN_BATCH_PLACE (R308). -/
  | genBatchPlace (n : StallId) (die : Die) (model : Nat)
  /-- ENGINE_HOLD_RETRY (R19). -/
  | engineHoldRetry (n : StallId) (die : Die)
  /-- IDX_REGISTER (R211). -/
  | idxRegister (f : Fn) (r : RingId) (d : Desc)
  /-- IDX_UPDATE (R212). -/
  | idxUpdate (f : Fn) (r : RingId) (d : Desc)
  /-- IDX_SWEEP (R214). -/
  | idxSweep (f : Fn) (r : RingId) (d : Desc)
  /-- IDX_RETIRE (R211). -/
  | idxRetire (f : Fn) (r : RingId) (d : Desc)
  /-- UPDATE_OP_DONE (R213). -/
  | updateOpDone (n : StallId)
  /-- SWEEP_DONE (R214). -/
  | sweepDone (n : StallId)
  /-- CODE_ENTRY_TAKE (R195). -/
  | codeEntryTake (n : StallId) (die : Die)
  /-- WALK_START (R196). -/
  | walkStart (n : StallId) (die : Die)
  /-- WALK_MEMORY_RESPONSE (R198). -/
  | walkMemoryResponse (n : StallId) (die : Die) (ctx : Nat)
  /-- TBL_REGISTER (R257). -/
  | tblRegister (f : Fn) (r : RingId) (d : Desc)
  /-- TBL_REPLACE (R254). -/
  | tblReplace (f : Fn) (r : RingId) (d : Desc)
  /-- TBL_REPLACE_START (R255). -/
  | tblReplaceStart (n : StallId) (h : Nat)
  /-- TBL_RETIRE (R257). -/
  | tblRetire (f : Fn) (r : RingId) (d : Desc)
  /-- FETCH_ENTRY_TAKE (R243). -/
  | fetchEntryTake (n : StallId) (die : Die)
  /-- INDEX_LIST_READ (R244). -/
  | indexListRead (n : StallId) (die : Die) (job : Nat)
  /-- ROW_READ_DONE (R247). -/
  | rowReadDone (n : StallId) (die : Die) (job : Nat)
  /-- REMOTE_PART_TIMEOUT (R241). -/
  | remotePartTimeout (n : StallId) (die : Die) (job : Nat)
  /-- TXT_VOCAB_REG (R265). -/
  | txtVocabReg (f : Fn) (r : RingId) (d : Desc)
  /-- TXT_GRAMMAR_REG (R285). -/
  | txtGrammarReg (f : Fn) (r : RingId) (d : Desc)
  /-- TXT_TEMPLATE_REG (R276). -/
  | txtTemplateReg (f : Fn) (r : RingId) (d : Desc)
  /-- TXT_TOKENISE (R274). -/
  | txtTokenise (f : Fn) (r : RingId) (d : Desc)
  /-- TXT_RETIRE (R291). -/
  | txtRetire (f : Fn) (r : RingId) (d : Desc)
  /-- TEXT_STEP (R263). -/
  | textStep (n : StallId) (die : Die)
  /-- TEXT_LINE_FILL (R263). -/
  | textLineFill (n : StallId) (die : Die) (job : Nat)
  /-- SRC_CTRL_RUN (R216). -/
  | srcCtrlRun (v : BitVec 32)
  /-- GTH_CTRL_RUN (R261). -/
  | gthCtrlRun (v : BitVec 32)
  /-- TXT_CTRL_RUN (R294). -/
  | txtCtrlRun (v : BitVec 32)
  /-- FTL_CTRL_RUN (R362). -/
  | ftlCtrlRun (v : BitVec 32)
  /-- SQ_TAIL_DOORBELL (R408). -/
  | sqTailDoorbell (f : Fn) (r : RingId) (v : BitVec 32)
  /-- CQ_HEAD_DOORBELL (R408). -/
  | cqHeadDoorbell (f : Fn) (r : RingId) (v : BitVec 32)
  /-- RING_ENABLE (R409). -/
  | ringEnable (f : Fn) (r : RingId) (v : BitVec 32)
  /-- RING_DISABLE (R409). -/
  | ringDisable (f : Fn) (r : RingId) (v : BitVec 32)
  /-- RING_DRAINED (R409). -/
  | ringDrained (f : Fn) (r : RingId)
  /-- DESCRIPTOR_FETCH (R296). -/
  | descriptorFetch (f : Fn) (r : RingId) (ds : List Desc)
  /-- HOST_READ_DATA (R403). -/
  | hostReadData (f : Fn) (bytes : List (BitVec 8))
  /-- HOST_READ_ERROR (R404). -/
  | hostReadError (f : Fn) (src : HostReadSource)
  /-- IRQ_TIMER_EXPIRY (R413). -/
  | irqTimerExpiry (f : Fn) (r : RingId)
  /-- MSIX_UNMASK (R413). -/
  | msixUnmask (f : Fn) (vec : Fin 32)
  /-- BUS_MASTER_ENABLE (R401). -/
  | busMasterEnable (f : Fn)
  /-- HOST_PERST_N_ASSERT (R397). -/
  | hostPerstNAssert
  /-- HOT_RESET (R397). -/
  | hotReset
  /-- DL_DOWN (R397). -/
  | dlDown
  /-- FLR_PF0 (R397). -/
  | flrPf0
  /-- FLR_VF (R497). -/
  | flrVf (n : StallId)
  /-- VF_ENABLE_CLEAR (R397). -/
  | vfEnableClear
  /-- MEM_ALLOC (R336). -/
  | memAlloc (f : Fn) (r : RingId) (d : Desc)
  /-- MEM_FREE (R337). -/
  | memFree (f : Fn) (r : RingId) (d : Desc)
  /-- MEM_SYNC (R344). -/
  | memSync (f : Fn) (r : RingId) (d : Desc)
  /-- MEM_SYNC_DONE (R344). -/
  | memSyncDone (f : Fn) (a : Nat)
  /-- MEM_MOVE (R351). -/
  | memMove (f : Fn) (r : RingId) (d : Desc)
  /-- TIER_CHANGE_DONE (R351). -/
  | tierChangeDone (f : Fn) (a : Nat)
  /-- MEM_HOST_IN (R338). -/
  | memHostIn (f : Fn) (r : RingId) (d : Desc)
  /-- MEM_HOST_OUT (R338). -/
  | memHostOut (f : Fn) (r : RingId) (d : Desc)
  /-- MEM_EXPORT (R353). -/
  | memExport (f : Fn) (r : RingId) (d : Desc)
  /-- MEM_UNEXPORT (R353). -/
  | memUnexport (f : Fn) (r : RingId) (d : Desc)
  /-- MEM_QUERY (R335). -/
  | memQuery (f : Fn) (r : RingId) (d : Desc)
  /-- STAGING_PAGE_FILL (R340). -/
  | stagingPageFill (f : Fn) (a : Nat) (page : Nat)
  /-- DEMOTE (R350). -/
  | demote (v : BitVec 32)
  /-- DEMOTE_ABORT (R350). -/
  | demoteAbort (v : BitVec 32)
  /-- DEMOTE_DONE (R350). -/
  | demoteDone
  /-- IMG_CREATE (R352). -/
  | imgCreate
  /-- IMG_DELETE (R352). -/
  | imgDelete
  /-- READ_DISTURB_REFRESH (R358). -/
  | readDisturbRefresh (b : Nat)
  /-- FLASH_PATROL_READ (R358). -/
  | flashPatrolRead (b : Nat) (bits : Nat)
  /-- WEAR_LEVEL_MOVE (R357). -/
  | wearLevelMove (b : Nat)
  /-- FLASH_BLOCK_FAIL (R359). -/
  | flashBlockFail (b : Nat)
  /-- HBM_PATROL_READ (R447). -/
  | hbmPatrolRead (g : Fin 80) (u : Nat) (f : Fn) (a : Nat) (res : EccResult)
  /-- HBM_UNCORR_READ (R440). -/
  | hbmUncorrRead (g : Fin 80) (u : Nat) (f : Fn) (a : Nat)
  /-- DEVICE_FATAL_ERROR (R444). -/
  | deviceFatalError (src : BitVec 8)
  /-- RING_TRANSFER_CRC_FAIL (R438). -/
  | ringTransferCrcFail (link : Fin 8)
  /-- RAS_REC_POP (R449). -/
  | rasRecPop
  /-- PORT_ENABLE (R366). -/
  | portEnable (p : PortId)
  /-- PORT_DISABLE (R366). -/
  | portDisable (p : PortId)
  /-- TRAIN_STATE_DONE (R366). -/
  | trainStateDone (p : PortId) (x : TrainInfo)
  /-- TRAIN_STATE_TIMEOUT (R366). -/
  | trainStateTimeout (p : PortId)
  /-- PORT_RETRAIN_TIMER (R366). -/
  | portRetrainTimer (p : PortId)
  /-- LANE_FAULT (R367). -/
  | laneFault (p : PortId) (lane : Fin 8)
  /-- LASER_BANK_FAIL (R365). -/
  | laserBankFail (e : Fin 8)
  /-- FLIT_RECEIVE (R370). -/
  | flitReceive (p : PortId) (fl : Flit) (corr : Nat) (bad : Nat)
  /-- CELL_START (R384). -/
  | cellStart (p : PortId)
  /-- PACKET_FORWARD (R373). -/
  | packetForward (src : PacketSource) (cls : Fin 17)
  /-- PACKET_DELIVER (R379). -/
  | packetDeliver (die : Die)
  /-- TRANSACTION_RESPONSE (R380). -/
  | transactionResponse (die : Die)
  /-- TRANSACTION_TIMEOUT (R380). -/
  | transactionTimeout (n : StallId) (tid : Nat)
  /-- GATE_ENTRY_ADVANCE (R389). -/
  | gateEntryAdvance (p : PortId)
  /-- MARK_RECEIVE (R392). -/
  | markReceive (p : PortId) (num : BitVec 64) (rtt : BitVec 20)
  /-- SYNC_MARK_TIMEOUT (R392). -/
  | syncMarkTimeout
  /-- INPUT_DIP (R418). -/
  | inputDip (x : Sample)
  /-- INPUT_SAG (R418). -/
  | inputSag (x : Sample)
  /-- INPUT_SURGE (R418). -/
  | inputSurge (x : Sample)
  /-- INPUT_LOSS (R423). -/
  | inputLoss (x : Sample)
  /-- INPUT_OVERVOLTAGE (R418). -/
  | inputOvervoltage (x : Sample)
  /-- INPUT_RETURN (R423). -/
  | inputReturn (x : Sample)
  /-- BANK_AT_VRES (R424). -/
  | bankAtVres (x : Sample)
  /-- HOLDUP_COMMIT_DONE (R424). -/
  | holdupCommitDone (x : Sample)
  /-- RAIL_FAULT (R429). -/
  | railFault (r : Fin 22)
  /-- RAIL_STEP_DONE (R428). -/
  | railStepDone
  /-- VSTBY_REGULATION (R419). -/
  | vstbyRegulation (x : Sample)
  /-- BANK_CAPACITANCE_MEASURE (R420). -/
  | bankCapacitanceMeasure (x : Sample)
  /-- POWER_EXCESS (R432). -/
  | powerExcess (x : Sample)
  /-- BALLAST_RAISE (R434). -/
  | ballastRaise (row : RowId)
  /-- BALLAST_RELEASE (R434). -/
  | ballastRelease (row : RowId)
  /-- THERM_TRIP (R435). -/
  | thermTrip (x : Sample)
  /-- PAGE (R436). -/
  | pmbusPage (b : BitVec 8)
  /-- CLEAR_FAULTS (R436). -/
  | pmbusClearFaults
  /-- CAPABILITY (R436). -/
  | pmbusCapability
  /-- VOUT_MODE (R436). -/
  | pmbusVoutMode
  /-- STATUS_BYTE (R436). -/
  | pmbusStatusByte
  /-- STATUS_WORD (R436). -/
  | pmbusStatusWord
  /-- STATUS_INPUT (R436). -/
  | pmbusStatusInput
  /-- READ_VIN (R436). -/
  | pmbusReadVin
  /-- READ_IIN (R436). -/
  | pmbusReadIin
  /-- READ_PIN (R436). -/
  | pmbusReadPin
  /-- READ_VOUT (R436). -/
  | pmbusReadVout
  /-- READ_IOUT (R436). -/
  | pmbusReadIout
  /-- READ_TEMPERATURE_1 (R436). -/
  | pmbusReadTemperature1
  /-- READ_TEMPERATURE_2 (R436). -/
  | pmbusReadTemperature2
  /-- PMBUS_REVISION (R436). -/
  | pmbusRevision
  /-- PMBUS_REFUSED (R436). -/
  | pmbusRefused (b : BitVec 8)
  /-- STAGE (R462). -/
  | fwStage
  /-- FW_STAGE_DONE (R462). -/
  | fwStageDone
  /-- ACTIVATE (R462). -/
  | fwActivate
  /-- COMMIT (R462). -/
  | fwCommit
  /-- REVERT (R462). -/
  | fwRevert
  /-- TRIAL_BOOT_TIMEOUT (R463). -/
  | trialBootTimeout
  /-- RECOVERY_MESSAGE (R459). -/
  | recoveryMessage (m : RecoveryMessage)
  /-- GET_VERSION (R471). -/
  | spdmGetVersion (f : Fn) (q : SpdmReq)
  /-- GET_CAPABILITIES (R471). -/
  | spdmGetCapabilities (f : Fn) (q : SpdmReq)
  /-- NEGOTIATE_ALGORITHMS (R471). -/
  | spdmNegotiateAlgorithms (f : Fn) (q : SpdmReq)
  /-- GET_DIGESTS (R471). -/
  | spdmGetDigests (f : Fn) (q : SpdmReq)
  /-- GET_CERTIFICATE (R472). -/
  | spdmGetCertificate (f : Fn) (q : SpdmReq)
  /-- CHALLENGE (R472). -/
  | spdmChallenge (f : Fn) (q : SpdmReq)
  /-- GET_MEASUREMENTS (R473). -/
  | spdmGetMeasurements (f : Fn) (q : SpdmReq)
  /-- KEY_EXCHANGE (R471). -/
  | spdmKeyExchange (f : Fn) (q : SpdmReq)
  /-- FINISH (R471). -/
  | spdmFinish (f : Fn) (q : SpdmReq)
  /-- KEY_UPDATE (R471). -/
  | spdmKeyUpdate (f : Fn) (q : SpdmReq)
  /-- HEARTBEAT (R471). -/
  | spdmHeartbeat (f : Fn) (q : SpdmReq)
  /-- END_SESSION (R471). -/
  | spdmEndSession (f : Fn) (q : SpdmReq)
  /-- SPDM_UNSUPPORTED (R471). -/
  | spdmUnsupported (f : Fn) (q : SpdmReq)
  /-- DOE_DISCOVERY (R416). -/
  | doeDiscovery (f : Fn) (ix : BitVec 8)
  /-- IDE_KM (R415). -/
  | ideKm (st : Fin 5) (key : Nat)
  /-- IDE_INTEGRITY_FAIL (R415). -/
  | ideIntegrityFail (st : Fin 5)
  /-- GET_INFO (R480). -/
  | getInfo
  /-- READ_TELEM (R480). -/
  | readTelem
  /-- READ_RECORDS (R480). -/
  | readRecords
  /-- READ_LOG (R480). -/
  | readLog (first : BitVec 32) (n : BitVec 16)
  /-- POWER_ON (R480). -/
  | powerOn
  /-- WARM_RESET (R480). -/
  | warmReset
  /-- SIDEBAND_UNSUPPORTED (R480). -/
  | sidebandUnsupported (op : BitVec 8)
  /-- SET_ENDPOINT_ID (R479). -/
  | setEndpointId (eid : BitVec 8)
  /-- LOGCMD_READ (R494). -/
  | logcmdRead
  /-- LOGCMD_SEAL (R490). -/
  | logcmdSeal
  /-- RTC_SET (R481). -/
  | rtcSet (v : BitVec 32)
  /-- LOG_SEAL_TIMER (R490). -/
  | logSealTimer
  /-- HOURLY_RECORD_TIMER (R488). -/
  | hourlyRecordTimer
  /-- WEAR_TABLE_TIMER (R489). -/
  | wearTableTimer
  /-- LOG_PROGRAM_FAIL (R492). -/
  | logProgramFail
  /-- STANDBY_TELEMETRY_TIMER (R493). -/
  | standbyTelemetryTimer (x : Sample)
  /-- INPUT_APPLIED (R498). -/
  | inputApplied (x : Sample)
  /-- STANDBY_EXIT (R499). -/
  | standbyExit (x : Sample)
  /-- STARTUP_PHASE_DONE (R498). -/
  | startupPhaseDone (o : PhaseOutcome)
  /-- BANK_RECHARGED_TO_VRES (R421). -/
  | bankRechargedToVres (x : Sample)
  /-- THERMAL_CYCLE (R489). -/
  | thermalCycle (x : Sample)
  /-- VSTBY_LOSS (R506). -/
  | vstbyLoss (x : Sample)
  /-- HOST_PERST_N_DEASSERT (R500). -/
  | hostPerstNDeassert
  /-- BOUNDARY_SCAN_ACCESS (R460). -/
  | boundaryScanAccess (ir : BitVec 8)
  /-- ALLOC_ZERO_FILL_DONE (R336). -/
  | allocZeroFillDone (f : Fn) (a : Nat)
  /-- TABLE_MAP_WRITTEN (R237). -/
  | tableMapWritten (n : StallId) (h : Nat)
  /-- VOCAB_STRUCTURES_BUILT (R266). -/
  | vocabStructuresBuilt (n : StallId) (h : Nat)
  /-- LOG_READ_DONE (R494). -/
  | logReadDone
  /-- PROVIDER_IMAGE_COMMAND_DONE (R352). -/
  | providerImageCommandDone
  /-- FLASH_DAILY_RECORD_TIMER (R488). -/
  | flashDailyRecordTimer
deriving DecidableEq, Repr

end Sys2Proof
end

