-- ==== Sys2Proof/Decode.lean ====
section
/-! DEFINITION. Decoding by the table's bits. The commands of this block come from its host link, its buses and its own events: spec/opcode_table.json gives no row a
bit, and no word spells a command. -/
namespace Sys2Proof

/-- The command that a word of `nbits` bits spells by the opcode table: none, for the table gives no bits. -/
def decodeTableWord (nbits w : Nat) : Option Instr :=
  match nbits, w with
  | _, _ => none

end Sys2Proof
end

