-- ==== Sys2Proof/Config.lean ====
section
/-! DEFINITION. What the spec leaves open: free values (constants without a body) that no statement can evaluate. -/
namespace Sys2Proof

/-- A fresh open value each time: applied to the model's own counter `State.fresh` (log 3). -/
opaque Config.free : Nat → Nat

/-- How far, in units in the last place, vrcp (`0`), vrsqrt (`1`) or vexp (`2`) of a lane lies from the rounded result, less 2 (Table 4.6, log 12). -/
opaque Config.ulpOff : Fin 3 → BitVec 32 → Fin 5

/-- The order in which vmergekv leaves 128 pairs when a list is out of order (R220, log 13): a choice of position for each rank. -/
opaque Config.mergeRank : List (BitVec 32 × BitVec 32) → Nat → Nat

/-- How entries of equal value and equal index but different bits stand among each other in selection order (R217, R218, log 13): a rank for each position of the list. -/
opaque Config.tieRank : List (BitVec 32 × BitVec 32) → Nat → Nat

/-- What a stopped or faulted topk or tkmerge leaves in its record and its working registers (R233, log 13). -/
opaque Config.selectionLeft : Nat → Nat → BitVec 8

/-- SHA-384 over the DevID public key, which the PUF gives a unit; its first 8 bytes are the Device Serial Number (R456, log 40). -/
opaque Config.pufIdentity : BitVec 384

/-- Key material and signatures: opaque results of the key store and the signer (ch. 19, log 40). -/
opaque Config.sign : Nat → List Byte → List Byte

/-- Which identifier a full visited table gives up for a new one (R199): a position below 4,096. -/
opaque Config.visitedVictim : List Nat → Nat → Nat

/-- The tokens, modulo NTOK, of a text whose vocabulary's tables have been written since its registration (R266, log 86). -/
opaque Config.changedTokens : Nat → List Byte → List Nat

/-- What R376 leaves open of ECRC: its first value, the value xored at its end, and whether bytes enter most significant bit first (log 43). -/
opaque Config.ecrcStart : BitVec 32
opaque Config.ecrcEnd : BitVec 32
opaque Config.ecrcMsb : Bool

/-- SHA-384 of the boot ROM (Table 19.7). -/
opaque Config.romDigest : BitVec 384

/-- The signature checks of R457: does the ECDSA signature (`0`) or the LMS signature (`1`) over some bytes verify under a public key (log 40)? -/
opaque Config.sigOk : Fin 2 → List Byte → List Byte → List Byte → Bool
/-- The ROM's root hashes (R457): ECDSA (`0`) or LMS (`1`), by key index (log 40). -/
opaque Config.rootHash : Fin 2 → Fin 4 → List Byte

/-- The corrected bits of a patrol read of a flash block above which its data moves (R358); the spec names a threshold and gives no number (log 58). -/
opaque Config.patrolBits : Nat

/-- The set of a base cache, modulo its 98,304, in which a line stands (R329): the spec gives no index function (log 10). -/
opaque Config.cacheSet : Nat → Nat

/-- The set of a row cache in which an item stands, by table and identifier (R252): the spec gives no index function (log 25). -/
opaque Config.rowSet : Nat → Nat → Nat

/-- The hash functions of the row cache's frequency sketch (R252): row and item to a counter, modulo 4,096 (log 25). -/
opaque Config.sketchHash : Nat → Nat → Nat → Nat

end Sys2Proof
end

