-- ==== Sys2Proof/Machine/AMap.lean ====
section
/-! DEFINITION. Sparse maps in one canonical form: keys strictly rising, no entry equal to the default that an unlisted key reads as. -/
namespace Sys2Proof.Machine

/-- A sparse map; an unlisted key reads as the default the reader names. -/
abbrev AMap (α : Type) := List (Nat × α)

/-- The value at `k`, `d` where no entry lists it. -/
def mapGet {α : Type} (d : α) : AMap α → Nat → α
  | [], _ => d
  | (k', v) :: m, k => if k' = k then v else mapGet d m k

/-- Put an entry in its place among rising keys. -/
def mapPut {α : Type} (k : Nat) (v : α) : AMap α → AMap α
  | [] => [(k, v)]
  | (k', w) :: m => if k' < k then (k', w) :: mapPut k v m else (k, v) :: (k', w) :: m

/-- Store `v` at `k`; storing the default `d` removes the entry. -/
def mapSet {α : Type} [DecidableEq α] (d : α) (m : AMap α) (k : Nat) (v : α) : AMap α :=
  let r := m.filter fun x => decide (x.1 ≠ k)
  if v = d then r else mapPut k v r

/-- Every key of a map lies above `lo`, keys rise strictly, and no value is the default. -/
def mapCanonFrom {α : Type} [DecidableEq α] (d : α) : Nat → AMap α → Bool
  | _, [] => true
  | lo, (k, v) :: m => decide (lo ≤ k) && decide (v ≠ d) && mapCanonFrom d (k + 1) m

/-- The canonical form of a sparse map. -/
def mapCanon {α : Type} [DecidableEq α] (d : α) (m : AMap α) : Bool := mapCanonFrom d 0 m

/-- Remove every key that `p` names. -/
def mapDrop {α : Type} (p : Nat → Bool) (m : AMap α) : AMap α := m.filter fun x => !p x.1

/-- Keys held as a set: a strictly rising list. -/
def setInsert : List Nat → Nat → List Nat
  | [], k => [k]
  | x :: xs, k => if x < k then x :: setInsert xs k else if x = k then x :: xs else k :: x :: xs

/-- Replace the element at index `i` of a list by `f` of it. -/
def listModify {α : Type} (f : α → α) : Nat → List α → List α
  | _, [] => []
  | 0, x :: xs => f x :: xs
  | i + 1, x :: xs => x :: listModify f i xs

/-- The natural number that `n` bytes spell, least significant first (R8). -/
def ofBytesLE : List Byte → Nat
  | [] => 0
  | b :: bs => b.toNat + 256 * ofBytesLE bs

/-- The `n` bytes of a natural number, least significant first (R8). -/
def toBytesLE : Nat → Nat → List Byte
  | 0, _ => []
  | n + 1, v => BitVec.ofNat 8 v :: toBytesLE n (v / 256)

end Sys2Proof.Machine
end

