-- ==== Sys2Proof/Machine/TypesFront.lean ====
section
/-! DEFINITION. The types of the register front end, the host functions and their rings, the Stalls and the Churn (chapters 02, 03, 16). -/
namespace Sys2Proof.Machine

/-- The status registers with SEQ (R34). -/
inductive StatReg where
  | glb | stl (n : StallId) | chn | mem | ftl | fab (p : PortId) | trf | pwr | ras | sec | mgt
  | txt | src | gth | til (t : TileId) | vf (n : StallId)
deriving DecidableEq, Repr

/-- A status register: event bits, SEQ, and the BCLK of its last event (R35: one increment a cycle). -/
structure Status where
  bits  : BitVec 24
  seq   : BitVec 8
  stamp : Nat
deriving DecidableEq, Repr

/-- Status codes of Table 16.7. -/
inductive Code where
  | ok | widened | short | tie | dupConflict | invalidText | cancelled | overrun | sideOverflow | kernelFault | poison
  | grammarStuck | grammarViolation | promptTooLong | badDesc | noStall | busy | quota | cfgReject | notFound | loadRefused
  | badIndex | indexFull | badTable | badText | keyFail | hostErr
deriving DecidableEq, Repr

/-- A descriptor fetched from a ring: where it came from, its place in fetch order, and its bytes. -/
structure Cmd where
  f   : Fn
  r   : RingId
  ord : Nat
  d   : Desc
deriving DecidableEq, Repr

/-- A completion entry (Table 12.5). -/
structure Completion where
  tag       : Word := 0
  opcode    : BitVec 16 := 0
  status    : Code := .ok
  stage     : BitVec 8 := 0
  notes     : Word := 0
  result0   : Word := 0
  result1   : Word := 0
  promptLen : Word := 0
  fault     : Word := 0
  kh        : BitVec 16 := 0
  pc        : Word := 0
  batch     : Word := 0
  firstUs   : Word := 0
  totalUs   : Word := 0
  reason    : Word := 0
deriving DecidableEq, Repr

/-- What the device sends to the host, in the order sent (R411). -/
inductive HostMsg where
  /-- A completion entry written into a slot of a completion ring. -/
  | entry (f : Fn) (r : RingId) (slot : Nat) (c : Completion)
  /-- A shadow record. -/
  | shadow (f : Fn) (r : RingId) (cqTail sqHead posted : Nat)
  /-- An MSI-X message. -/
  | msix (f : Fn) (vec : Nat)
  /-- Bytes of MEM_HOST_OUT. -/
  | data (f : Fn) (addr : Nat) (bytes : List Byte)
deriving DecidableEq, Repr

/-- One ring pair (R405–R413). -/
structure Ring where
  en      : Bool
  drained : Bool
  halted  : Bool
  code    : BitVec 3
  sqTail  : Nat
  sqHead  : Nat
  cqHead  : Nat
  cqTail  : Nat
  /-- Completions posted since EN was set, modulo 2^32. -/
  posted  : Nat
  /-- Fetch order of the next descriptor. -/
  nextOrd : Nat
  /-- Fetch orders of the descriptors started and not completed. -/
  running : List Nat
  /-- Descriptors fetched that FENCE holds back. -/
  waiting : List Cmd
  /-- Descriptors started that wait to read or write what they name in memory. -/
  gated   : List Cmd
  /-- The BCLK of posting of each completion not yet signalled, oldest first. -/
  unsig   : List Nat
deriving DecidableEq, Repr

def Ring.reset : Ring :=
  { en := false, drained := true, halted := false, code := 0, sqTail := 0, sqHead := 0, cqHead := 0, cqTail := 0,
    posted := 0, nextOrd := 0, running := [], waiting := [], gated := [], unsig := [] }

/-- A host copy in progress (R338). -/
structure HostCopy where
  cmd   : Cmd
  /-- True for MEM_HOST_IN. -/
  into  : Bool
  host  : Nat
  dev   : Nat
  bytes : Nat
  /-- Bytes asked of the host in read turns, and bytes moved. -/
  asked : Nat
  done  : Nat
  /-- Bytes that have come and wait to be written (R340). -/
  buf   : List Byte
deriving DecidableEq, Repr

/-- A function of the host link (ch. 16). -/
structure HostFn where
  /-- Bus Master Enable (R401). -/
  bme     : Bool
  rings   : Vector Ring 8
  rejAddr : Word
  rejCause : BitVec 3
  rejCount : BitVec 16
  /-- MSI-X vector mask bits and pending bits. -/
  masked  : BitVec 32
  pba     : BitVec 32
  /-- Messages held while Bus Master Enable is 0. -/
  held    : List HostMsg
  copies  : List HostCopy
  /-- Errors reported to the VF (R451). -/
  errCe   : Word
  errUe   : Word
  errAddr : BitVec 64
deriving DecidableEq, Repr

def HostFn.reset : HostFn :=
  { bme := false, rings := Vector.replicate 8 Ring.reset, rejAddr := 0, rejCause := 0, rejCount := 0, masked := BitVec.allOnes 32, pba := 0,
    held := [], copies := [], errCe := 0, errUe := 0, errAddr := 0 }

/-- The four states of a Stall (Table 3.2). -/
inductive StallState where
  | dry | freshening | fresh | drying
deriving DecidableEq, Repr

/-- Where a Stall command stands (R59, R61, R62). -/
inductive StallStep where
  | idle
  /-- Step 3 of R59: the image's pages are being copied. -/
  | loading
  /-- Step 4 of R59: waits for a Churn boundary. -/
  | loaded
  /-- R61: the clean-up of a freshening that failed or was aborted. -/
  | cleanup (st : Code)
  /-- Step 2 of R62, draining; the boundaries left of STL_DRAIN_LIMIT. -/
  | draining (left : Nat)
  /-- Step 3 of R62: tile stores are being saved. -/
  | saving
  /-- Step 4 of R62. -/
  | writingBack
  /-- Step 6 of R62. -/
  | scrubbing
deriving DecidableEq, Repr

/-- A row of tiles of the slot schedule: whose state it holds, and the switch under way (R75, R518). -/
structure RowState where
  held      : Option StallId
  switching : Bool
  /-- The Stall whose state the running switch brings in; none for a save alone. -/
  incoming  : Option StallId
  /-- A switch that begins when the running one completes (R518). -/
  queued    : Option (Option StallId)
  /-- The slot open on the row. -/
  slot      : Option SlotId
  /-- Ballast raised for the row (R433). -/
  ballast   : Bool
deriving DecidableEq, Repr

def RowState.reset : RowState :=
  { held := none, switching := false, incoming := none, queued := none, slot := none, ballast := false }

/-- A packet (R376): its 32-byte header, its payload, and the payload blocks that carry poison (R379, R440). -/
structure Packet where
  hdr   : BitVec 256
  pay   : List Byte
  marks : List Bool
deriving DecidableEq, Repr

/-- The Churn scheduler (ch. 03). -/
structure Churn where
  running    : Bool
  /-- RUN was written 0: the next boundary halts (R71). -/
  halting    : Bool
  num        : BitVec 64
  /-- The BCLK of the last boundary. -/
  boundaryAt : Nat
  skipReg    : Word
  /-- The entries skipped for this Churn (R73). -/
  skipped    : List Nat
  /-- The entries whose slot has opened, and those whose slot has ended, in this Churn. -/
  opened     : List Nat
  ended      : List Nat
  /-- Entries whose START has passed while their rows were not ready: they open late (R77). -/
  late       : List Nat
  rows       : Vector RowState 32
  /-- Turns taken by each wheel resource since the frame began. -/
  turns      : AMap Nat
  /-- Commons turns taken since the frame began, and the function in the current turn. -/
  cturn      : Nat
  commons    : Option Fn
  /-- CCLK as last set, in MHz (R430), the frequency it glides from, and the BCLK in which that glide began (R431). -/
  mhz        : Nat
  glideFrom  : Nat
  glideAt    : Nat
deriving DecidableEq, Repr

def Churn.reset : Churn :=
  { running := false, halting := false, num := 0, boundaryAt := 0, skipReg := 0, skipped := [], opened := [], ended := [], late := [],
    rows := Vector.replicate 32 RowState.reset, turns := [], cturn := 0, commons := none, mhz := 1300, glideFrom := 1300, glideAt := 0 }

/-- BCLK cycles in a µs. -/
def usBclk : Nat := 1100
/-- The CCLK frequency `k` steps of 25 MHz into a glide. -/
def Churn.glideStep (c : Churn) (k : Nat) : Nat := if c.glideFrom ≤ c.mhz then min c.mhz (c.glideFrom + 25 * k) else max c.mhz (c.glideFrom - 25 * k)
/-- CCLK in force at a BCLK (R431). DESIGN CHOICE: a glide takes a step of 25 MHz in every µs (log 98). -/
def Churn.clkAt (c : Churn) (t : Nat) : Nat := c.glideStep ((t - c.glideAt) / usBclk)
/-- The frequency at which time left is counted: through a glide the lower of its two ends (R431). -/
def Churn.clkLow (c : Churn) (t : Nat) : Nat := if c.clkAt t = c.mhz then c.mhz else min c.glideFrom c.mhz
/-- 1,100 times the CCLK cycles of a number of BCLK from the beginning of the glide on; 26 steps are the longest glide. -/
def Churn.cycles (c : Churn) (t : Nat) : Nat :=
  let k := min 26 (t / usBclk)
  ((List.range k).map fun j => c.glideStep j * usBclk).sum + c.glideStep k * (t - k * usBclk)
/-- The BCLK by which `need`, 1,100 times a number of CCLK cycles, has run from BCLK `t` on: step by step through a glide. -/
def Churn.reach (c : Churn) : Nat → Nat → Nat → Nat
  | 0, t, need => t + (need + c.mhz - 1) / c.mhz
  | k + 1, t, need =>
    let f := c.clkAt t
    let next := c.glideAt + ((t - c.glideAt) / usBclk + 1) * usBclk
    if f = c.mhz ∨ need ≤ (next - t) * f then t + (need + f - 1) / f else c.reach k next (need - (next - t) * f)

end Sys2Proof.Machine
end

