-- ==== Sys2Proof/Machine/TypesTile.lean ====
section
/-! DEFINITION. The types of a tile, its kernel, its units, and the work items of chapters 04 to 06. -/
namespace Sys2Proof.Machine

/-- A run-time fault cause (Table 4.12). -/
inductive Cause where
  | tsRange | align | gaddr | poison | trap | operand
deriving DecidableEq, Repr

/-- A work item (R124): kernel handle, arguments, batch. -/
structure Item where
  handle : BitVec 16
  args   : List (BitVec 64)
  batch  : Nat
deriving DecidableEq, Repr

/-- A kernel running on a tile. -/
structure Running where
  stall  : StallId
  item   : Item
  /-- The Stall's loaded kernel: index within its container, and the container. -/
  cont   : Nat
  start  : Nat
  len    : Nat
  bound  : Nat
  consts : Nat
  /-- The words of the container's code section; the pc counts them (R87). -/
  code   : List (BitVec 64)
  /-- BCLK at which it started, or CCLK last changed, and 1,100 times the CCLK cycles that it had run by then (R109). -/
  since  : Nat
  ran    : Nat
  /-- The greatest elapsed count that rdinfo has answered (CCLK). -/
  seen   : Nat
deriving DecidableEq, Repr

/-- A hardware loop in progress (R92), innermost first. -/
structure LoopFrame where
  depth : Fin 4
  first : Nat
  last  : Nat
  left  : Nat
deriving DecidableEq, Repr

/-- A stationary bank: its type and its rows as they lay in the tile store (R148). -/
structure Stationary where
  t    : BitVec 4
  data : List Byte
deriving DecidableEq, Repr

/-- A matrix operation issued and not completed, with what it read at issue; `waits` while the first line of an mmul has not entered the grid (R153). -/
inductive MatOp where
  /-- An mmul: accumulator, rows, stream type, stationary operand, stream lines, .z. -/
  | mmul (acc : Fin 2) (rows : Nat) (t : BitVec 4) (w : Stationary) (lines : List Byte) (z : Bool) (waits : Bool)
  /-- A macst: accumulator, type, sA, sB, sC. -/
  | macst (acc : Fin 2) (t : BitVec 4) (a b c : Nat)
deriving DecidableEq, Repr

/-- An mvx issued and not completed. -/
structure MvOp where
  t    : BitVec 4
  vd   : Nat
  n    : Nat
  acts : List (BitVec 2048)
  wts  : List Byte
deriving DecidableEq, Repr

/-- An outstanding DMA. -/
structure Dma where
  inward : Bool
  skew   : Bool
  t      : BitVec 4
  ts     : Nat
  ga     : Nat
  len    : Nat
  rows   : Nat
  stride : Nat
  /-- 64-byte pieces of a dmaout written so far. -/
  put    : Nat
deriving DecidableEq, Repr

/-- Where an array stands against the activity ramp (R159, R160). -/
inductive Activity where
  | down | ramping | up
deriving DecidableEq, Repr

/-- Quarantine of a tile with its cause, which stands until the tile returns (R139, R141). `passed`: waits for a boundary to return. -/
inductive Quar where
  | none
  | pending (cause : BitVec 4)
  | quar (cause : BitVec 4)
  | selftest (cause : BitVec 4)
  | passed (cause : BitVec 4)
deriving DecidableEq, Repr

structure Tile where
  s      : Vector (BitVec 64) 32
  v      : Vector (BitVec 2048) 32
  vp     : Vector (BitVec 256) 8
  lc     : Vector (BitVec 32) 4
  loops  : List LoopFrame
  ret    : List Nat
  pc     : Nat
  acc    : Vector (AMap (BitVec 32)) 2
  st0    : Option Stationary
  st1    : Option Stationary
  /-- An mstl in progress, and whether any mswap has been issued. -/
  mstl   : Option Stationary
  swapped : Bool
  mat    : List MatOp
  mv     : List MvOp
  activity : Activity
  tags   : Vector (Option Dma) 16
  /-- Outstanding amoadds: destination register, address, addend. -/
  amo    : List (Fin 32 × Nat × BitVec 64)
  /-- Old values that the exporting module has answered for those at pool addresses (R354). -/
  amoGot : List (Fin 32 × BitVec 64)
  store  : AMap Byte
  /-- Poisoned 64-byte blocks of the tile store. -/
  marks  : List Nat
  run    : Option Running
  /-- The last kernel, once it has ended: operations that it issued may still complete (R107, R181). -/
  last   : Option Running
  /-- The Stall of the last kernel: its outstanding operations complete in that Stall's space (R107, R166). -/
  owner  : Option StallId
  staged : Option Item
  quar   : Quar
  fInfo  : Word
  fPc    : Word
  fKh    : Word
  fBatch : Word
  items  : BitVec 64
  steals : BitVec 64
  /-- Corrected errors counted against RAS_TILECFG (R448). -/
  ce     : Nat
deriving DecidableEq, Repr

/-- Registers, predicates, counters, banks, stack and tags as R85 leaves them; the store is kept apart. -/
def Tile.reset : Tile :=
  { s := Vector.replicate 32 0, v := Vector.replicate 32 0, vp := Vector.replicate 8 0, lc := Vector.replicate 4 0, loops := [], ret := [],
    pc := 0, acc := Vector.replicate 2 [], st0 := none, st1 := none, mstl := none, swapped := false, mat := [], mv := [], activity := .down,
    tags := Vector.replicate 16 none, amo := [], amoGot := [], store := [], marks := [], run := none, last := none, owner := none, staged := none, quar := .none, fInfo := 0, fPc := 0,
    fKh := 0, fBatch := 0, items := 0, steals := 0, ce := 0 }

/-- A kernel of a loaded container (Table 4.16). -/
structure Kernel where
  handle : BitVec 16
  start  : Nat
  len    : Nat
  bound  : Nat
deriving DecidableEq, Repr

/-- A loaded container (R113–R117). -/
structure Container where
  id      : Nat
  digest  : Nat
  step    : BitVec 8
  consts  : Nat
  kernels : List Kernel
  /-- The words of the container's code section, which the translation stands for (R87, R114). -/
  code    : List (BitVec 64)
  /-- 2 MiB-free charge in bytes against the HBM quota (R115, R116). -/
  charge  : Nat
  unloading : Bool
deriving DecidableEq, Repr

end Sys2Proof.Machine
end

