-- ==== Sys2Proof/Machine/TypesEngines.lean ====
section
/-! DEFINITION. The types of the engines: indexes and walks (ch. 08), tables and gathers (ch. 10), vocabularies, grammars, templates and text jobs (ch. 11). -/
namespace Sys2Proof.Machine

/-- An entry of a Stall's share of a B-die queue (Table 1.3): its bytes, the request it belongs to (REQ_TAG), the BCLK of its push, and what the device
records with it: the epoch of a code entry (R193); for a pinned fetch entry, the version its batch reads at (R242, R253). -/
structure QEntry where
  e      : Entry
  tag    : Word
  since  : Nat
  note   : Nat
  poison : Bool
deriving DecidableEq, Repr

/-! ### Graph search -/

/-- A shard descriptor as copied at registration (Table 8.3). -/
structure Shard where
  die     : Die
  cap     : Nat
  code    : Nat
  adj     : Nat
  metaB   : Nat
  entries : List Nat
  efBuild : Nat
deriving DecidableEq, Repr

structure Index where
  handle   : Nat
  w        : Nat
  d        : Nat
  shards   : List Shard
  epoch    : Nat
  retiring : Bool
deriving DecidableEq, Repr

/-- A filter clause of Table 8.5: test, MASK, VALUE. -/
structure Clause where
  op    : Nat
  mask  : Nat
  value : Nat
deriving DecidableEq, Repr

/-- A code queue entry that the dispatcher has taken and whose walks are being started (R196). -/
structure Dispatching where
  die     : Die
  entry   : Entry
  epoch   : Nat
  total   : Nat
  /-- Shards still to start, ascending, and the number of the next walk. -/
  left    : List Nat
  next    : Nat
  code    : Nat
  clauses : List Clause
  poison  : Bool
deriving DecidableEq, Repr

/-- The next memory request of a walk (Table 8.15). -/
inductive WalkReq where
  | metaOf (n : Nat)
  | codeOf (n line dist : Nat) (attr : Nat) (live : Bool)
  | adjOf (n line : Nat) (acc : List Nat)
  /-- A line of a list that is prefetched (R200): the slots read so far, and whether a line of them was poisoned. -/
  | listOf (n line : Nat) (acc : List Nat) (bad : Bool)
  | block (line : Nat)
  | finished
deriving DecidableEq, Repr

/-- A node of the candidate queue. -/
structure Cand where
  dist : Nat
  node : Nat
  expanded : Bool
deriving DecidableEq, Repr

/-- A list buffer of a context (R200): the node whose adjacency list it holds, and whether a line of it was poisoned. -/
structure ListBuf where
  node  : Nat
  slots : List Nat
  bad   : Bool
deriving DecidableEq, Repr

/-- A walk in a context (R197–R206). -/
structure Walk where
  ctx      : Nat
  die      : Die
  home     : Die
  /-- The update operation that an insert walk serves; none for a walk of a code queue entry. -/
  insert   : Option Nat
  entry    : Entry
  walk     : Nat
  walks    : Nat
  index    : Nat
  shard    : Nat
  epoch    : Nat
  ef       : Nat
  r        : Nat
  limit    : Nat
  clauses  : List Clause
  code     : Nat
  queue    : List Cand
  results  : List (Nat × Nat)
  visited  : List Nat
  todo     : List Nat
  fromAdj  : Bool
  req      : WalkReq
  flight   : Bool
  entered  : Bool
  expanded : Nat
  visits   : Nat
  /-- Live nodes that failed the filter. -/
  failed   : List Nat
  flags    : BitVec 32
  began    : Nat
  held     : Option Entry
  /-- Lists to prefetch beyond the one being expanded (FLAGS.PREFETCH), those still to read now, and the buffers that hold one. -/
  prefetch : Nat
  wanted   : List Nat
  bufs     : List ListBuf
deriving DecidableEq, Repr

/-- An operation of an update (Table 8.9). -/
inductive OpState where
  | wait
  | walking
  | ready (cands : List Cand) (poison : Bool)
  | done
deriving DecidableEq, Repr

structure UpdOp where
  op    : Nat
  shard : Nat
  node  : Nat
  attr  : Nat
  code  : Nat
  bad   : Bool
  poison : Bool
  st    : OpState
deriving DecidableEq, Repr

/-- A sweep (R214): the shard being swept, its E_min, the shards left, the two counts, and the context that it holds. `at_` counts its steps on the shard: the repair of
each node's list, the entry points, then the freeing of each marked node. -/
structure SweepRun where
  shard : Nat
  emin  : Nat
  left  : List Nat
  freed : Nat
  later : Nat
  ctx   : Option Nat
  at_   : Nat
deriving DecidableEq, Repr

inductive IdxRun where
  | wait
  | update (ops : List UpdOp) (ores : Nat)
  /-- Every operation has been applied or has failed: published at the next boundary (R207). -/
  | applied
  | sweep (r : SweepRun)
  | retire
deriving DecidableEq, Repr

structure IdxCmd where
  cmd    : Cmd
  handle : Nat
  run    : IdxRun
deriving DecidableEq, Repr

/-! ### Tables -/

/-- A PASSAGE shard (Table 10.2). -/
structure PassShard where
  die  : Die
  cap  : Nat
  offs : Nat
  tok  : Nat
deriving DecidableEq, Repr

/-- A column part (Table 10.3). -/
structure Part where
  module_ : Nat
  handle  : Nat
  off     : Nat
  bytes   : Nat
deriving DecidableEq, Repr

structure Table where
  handle   : Nat
  passage  : Bool
  ty       : BitVec 4
  die      : Die
  rowBytes : Nat
  rows     : Nat
  slots    : Nat
  map      : Nat
  data     : Nat
  parts    : List Part
  shards   : List PassShard
  version  : Nat
  /-- Free slots, and the slots that the last published replacement made old (R255), each with its position in the free-slot list. -/
  free     : List (Nat × Nat)
  old      : List (Nat × Nat)
  ready    : Bool
  retiring : Bool
deriving DecidableEq, Repr

/-- A map entry that a replacement has changed: its row, what it held, and the slot it names now with that slot's position in the free-slot list (R254, R258). -/
structure MapChange where
  row  : Nat
  was  : List Byte
  pos  : Nat
  slot : Nat
deriving DecidableEq, Repr

/-- A replacement that runs (R254, R255): old slots still to return to the free-slot list, its records (none: poisoned), those dealt with, and what they changed and
made old. -/
structure Replacing where
  back    : List (Nat × Nat)
  recs    : List (Option Nat)
  done    : Nat
  changed : List MapChange
  old     : List (Nat × Nat)
deriving DecidableEq, Repr

inductive TblRun where
  | wait
  /-- The map is being written: pieces written so far. -/
  | mapping (put : Nat)
  | running (x : Replacing)
  /-- Every record applied: it awaits the boundary. -/
  | applied (x : Replacing)
  | retire
deriving DecidableEq, Repr

structure TblCmd where
  cmd    : Cmd
  handle : Nat
  run    : TblRun
deriving DecidableEq, Repr

/-- A fetch queue entry taken by the dispatcher (R243–R248). -/
structure GJob where
  id      : Nat
  die     : Die
  entry   : Entry
  version : Nat
  took    : Nat
  next    : Nat
  done    : Nat
  reads   : Nat
  hits    : Nat
  rangeN  : Nat
  fillN   : Nat
  rmiss   : Nat
  flags   : BitVec 16
  /-- Ordinals given: engine, slot, ordinal, newest first. -/
  ords    : List (Nat × Nat × Nat)
  nord    : Nat
  held    : Option Entry
deriving DecidableEq, Repr

/-- What a read has brought (R250): its bytes; its poisoned pieces, a row's 64-byte blocks or a sequence's tokens by number; the full length of a sequence; and
whether its offset entry was poisoned, or it lies outside the Stall's allocations. -/
structure RowData where
  bytes  : List Byte
  bad    : List Nat
  len    : Nat
  badOff : Bool
  beyond : Bool
deriving DecidableEq, Repr

/-- An item of a row cache (R251): its B-die and engine, its table, its slot or passage identifier, and its bytes. Its contents stand in memory (log 25). -/
structure RowItem where
  die    : Die
  engine : Nat
  table  : Nat
  key    : Nat
  size   : Nat
deriving DecidableEq, Repr

/-- A read in an engine's window with the requests attached to it (R247). -/
structure GRead where
  die     : Die
  engine  : Nat
  table   : Nat
  /-- The slot, or shard × 2^32 + local identifier. -/
  key     : Nat
  row     : Nat
  scatter : Bool
  owner   : Nat
  reqs    : List (Nat × Nat)
  started : Bool
  /-- Remote parts not arrived, and those that have: index and bytes. -/
  missing : List Nat
  got     : List (Nat × List Byte)
  timedOut : Bool
  /-- The addends of a scatter-add: job and address, in the order they entered (R249). -/
  adds    : List (Nat × Nat)
  /-- What the read has brought, once it has; the requests left are still to be written. -/
  data    : Option RowData
  /-- A part read for another module: the B-die its request came to, and the request (R240). `ver`: the version it reads at. -/
  from_   : Option (Die × Packet)
  ver     : Nat
deriving DecidableEq, Repr

/-! ### Text -/

/-- A token of a vocabulary (Table 11.3). -/
structure Tok where
  str     : List Byte
  control : Bool
  stop    : Bool
  byte    : Bool
deriving DecidableEq, Repr

/-- A vocabulary with the structures that the device builds from it (R264–R266). -/
structure Vocab where
  handle   : Nat
  toks     : List Tok
  merges   : List (Nat × Nat × Nat)
  repl     : Nat
  byteBase : Option Nat
  presplit : Bool
  size     : Nat
  ready    : Bool
  /-- The token table, string area and merge list that it was registered from. -/
  tokAddr  : Nat
  strAddr  : Nat
  mrgAddr  : Nat
deriving DecidableEq, Repr

structure Grammar where
  handle : Nat
  nstate : Nat
  start  : Nat
  vocab  : Nat
  trans  : Nat
  accept : Nat
  slots  : Nat
  cache  : Nat
deriving DecidableEq, Repr

structure Template where
  handle  : Nat
  vocab   : Nat
  minpass : Nat
  ctrl    : List Nat
  ops     : List (Nat × Nat × Nat)
  lits    : List Nat
deriving DecidableEq, Repr

inductive TextWork where
  | token (tag : Word)
  | pack (e : QEntry)
  | out (e : QEntry)
  | tokenise (c : Cmd)
deriving DecidableEq, Repr

/-- Where a job stands towards the mask that follows its first work: none does, it follows, or the job computes it (R280, R282). -/
inductive MaskPart where
  | none | after | now
deriving DecidableEq, Repr

structure TextJob where
  id     : Nat
  die    : Die
  work   : TextWork
  /-- Does the job hold a context (R262)? -/
  ctx    : Bool
  /-- Steps taken. -/
  taken  : Nat
  /-- Waits for a table line (R263); `filled`: the line it waited for is held. -/
  line   : Bool
  filled : Bool
  /-- Entries held for a full share, oldest first (R19): queue number and entry. -/
  held   : List (Nat × QEntry)
  mask   : MaskPart
deriving DecidableEq, Repr
/-- A job that has taken no step. -/
def TextJob.new (id : Nat) (die : Die) (work : TextWork) : TextJob := { id, die, work, ctx := false, taken := 0, line := false, filled := false, held := [], mask := .none }

/-- A mask cache slot in use: grammar, slot, state; least recently used first (R289). -/
structure MaskSlot where
  grammar : Nat
  slot    : Nat
  state   : Nat
  /-- Sequences whose mask entry pins it. -/
  pins    : List Word
deriving DecidableEq, Repr

end Sys2Proof.Machine
end

