-- ==== Sys2Proof/Machine/TypesServing.lean ====
section
/-! DEFINITION. The types of the serving control logic of one Stall (ch. 12), its queues (ch. 01) and its work queues (ch. 05). -/
namespace Sys2Proof.Machine

/-- Where an admitted request stands. -/
inductive Phase where
  /-- Stages 1 to 6: queries on their way to a prompt. -/
  | early
  /-- The prompt entry is pushed and not taken. -/
  | prompt
  | prefill
  | decode
  /-- The sequence has ended; the last bytes are being rendered, then the completion is posted. -/
  | done
deriving DecidableEq, Repr

/-- What ended a request, or a batch: the fields its completion carries (R138, R301). -/
structure Failure where
  status : Code
  stage  : BitVec 8 := 0
  fault  : Word := 0
  kh     : BitVec 16 := 0
  pc     : Word := 0
  batch  : Word := 0
deriving DecidableEq, Repr

/-- An admitted request (R297–R301, R306–R313). Addresses are global addresses of the Stall. -/
structure Request where
  cmd       : Cmd
  tag       : Word
  seq       : Nat
  dispatch  : Bool
  program   : Nat
  client    : Nat
  /-- Adapter in use and its pinned version; none for no adapter. -/
  adapter   : Option (Nat × Nat)
  home      : Die
  admitAt   : Nat
  work      : Nat
  qtokCap   : Nat
  outAddr   : Nat
  outBytes  : Nat
  maxNew    : Nat
  tokOut    : Nat
  maskAddr  : Nat
  filter    : Nat
  temp      : Word
  topK      : Nat
  seed      : BitVec 64
  sample    : Bool
  stage     : BitVec 8
  phase     : Phase
  notes     : Word
  wide      : Bool
  retried   : Bool
  failed    : Option Failure
  cancelled : Bool
  /-- Slots of the Stall on the home die that were open when the cancellation was taken, and have not ended (R320). -/
  waitSlots : List Nat
  promptLen : Nat
  prefixLen : Nat
  promptAt  : Nat
  /-- P of R313: positions that a ready handle covers, or that the builder's handle will hold. -/
  pfx       : Nat
  /-- Next prompt position to prefill. -/
  pos       : Nat
  maxOut    : Nat
  /-- Output tokens accepted. -/
  step      : Nat
  last      : Word
  /-- The sequence's last token was accepted and its next row may run. -/
  ready     : Bool
  /-- Private KV pages in page-table order, and pages still reserved. -/
  pages     : List Nat
  reserve   : Nat
  handle    : Option Nat
  builder   : Bool
  firstUs   : Nat
  /-- Bytes of output text written, the held bytes of a character (R283), and the grammar state (R287). -/
  outDone   : Nat
  heldText  : List Byte
  gstate    : Nat
deriving DecidableEq, Repr

/-- What a batch came from (R125, R304, R308, R321). -/
inductive BatchKind where
  | dispatch (tag : Word)
  | trigger (s : Nat)
  | gen (model : Nat) (slot : Nat)
deriving DecidableEq, Repr

/-- One row of a generation batch (Table 12.10). -/
structure GenRow where
  tag    : Word
  decode : Bool
  pos    : Nat
  ntok   : Nat
  step   : Nat
  pushed : Bool
deriving DecidableEq, Repr

/-- How a batch is being ended, strongest first (R184). -/
inductive BatchEnd where
  | fault (f : Failure)
  | overflow (f : Failure)
  | overrun (f : Failure)
deriving DecidableEq, Repr

structure Batch where
  num    : Nat
  die    : Die
  kind   : BatchKind
  /-- Root items with their wide handles. -/
  roots  : List (Item × BitVec 16)
  retry  : Nat
  wide   : Bool
  /-- Root items not yet in the inbox: the batch waits for room (R127). -/
  waiting : Bool
  ending : Option BatchEnd
  /-- Entries its kernels have popped, in order, with their queue (R305). -/
  popped : List (Nat × QEntry)
  /-- Requests whose entries its kernels have popped. -/
  served : List Word
  /-- It was placed again after an overrun; a request that joins it notes RETRIED (Table 12.6). -/
  again  : Bool
  /-- Requests of the batch that have ended: their tags may name other requests by now. -/
  dead   : List Word
  rows   : List GenRow
  /-- Table versions in force at the first placement of its root items (R253). -/
  pins   : Option (List (Nat × Nat))
deriving DecidableEq, Repr

/-- A bound program: its handle and the 256 bytes of its record (Table 12.7). -/
structure Program where
  handle : Nat
  bytes  : List Byte
  /-- An object that it binds has been retired: its requests are admitted no longer (R291). -/
  closed : Bool
deriving DecidableEq, Repr

/-- A registered model: its handle and its record (Table 12.9). -/
structure Model where
  handle : Nat
  bytes  : List Byte
deriving DecidableEq, Repr

/-- An adapter of a model (R316): current version (0: none) and area; a load waiting for the boundary; a load waiting for the release of the version it replaced. -/
structure Adapter where
  id    : Nat
  model : Nat
  ver   : Nat
  addr  : Nat
  bytes : Nat
  next  : Option (Cmd × Nat × Nat)
  old   : Option (Cmd × Nat)
  /-- The area of the version before the current one. -/
  oldAddr : Nat
  queue : List Cmd
deriving DecidableEq, Repr

/-- Settings of a client (R318) and the tokens left of its budget. -/
structure Client where
  id     : Nat
  maxSeq : Nat
  budget : Word
  left   : Word
  next   : Option (Nat × Word)
deriving DecidableEq, Repr

/-- A trigger entry (Table 12.8). -/
structure Trig where
  handle  : BitVec 16
  wide    : BitVec 16
  items   : Nat
  min     : Nat
  maxWait : Nat
  retry   : Nat
deriving DecidableEq, Repr

def Trig.none : Trig := ⟨0xFFFF, 0xFFFF, 0, 0, 0, 0⟩

/-- SRV_CFG state (R303). -/
structure SrvCfg where
  pt    : Nat
  row   : Nat
  prog  : Nat
  trig  : List Trig
  next  : Option (List Trig)
deriving DecidableEq, Repr

/-- The key of a prefix handle (R314). -/
structure PfxKey where
  template : Nat
  model    : Nat
  adapter  : Option (Nat × Nat)
  ns       : Nat
deriving DecidableEq, Repr

structure PfxHandle where
  id      : Nat
  key     : PfxKey
  len     : Nat
  pages   : List Nat
  ready   : Bool
  mapped  : List Word
  usedAt  : Nat
  dropped : Bool
deriving DecidableEq, Repr

/-- Serving state that drying retains (R322). -/
structure Retained where
  containers : List Container
  programs   : List Program
  models     : List Model
  adapters   : List Adapter
  clients    : List Client
  cfg        : SrvCfg
  indexes    : List Index
  tables     : List Table
  vocabs     : List Vocab
  grammars   : List Grammar
  templates  : List Template
deriving DecidableEq, Repr

def Retained.empty : Retained :=
  { containers := [], programs := [], models := [], adapters := [], clients := [], cfg := ⟨0, 0, 0, [Trig.none, Trig.none, Trig.none], none⟩, indexes := [], tables := [], vocabs := [],
    grammars := [], templates := [] }

/-- A container load under way (R114, R115). -/
structure Loading where
  cmd  : Cmd
  cont : Container
deriving DecidableEq, Repr

/-- A CANCEL that waits for the completions of its targets (R320). -/
structure Cancelling where
  cmd     : Cmd
  targets : List Word
  count   : Nat
deriving DecidableEq, Repr

structure Serving where
  keep     : Retained
  nextCont : Nat
  nextHandle : Nat
  loading  : List Loading
  requests : List Request
  batches  : List Batch
  handles  : List PfxHandle
  nextPfx  : Nat
  cancels  : List Cancelling
  /-- Tokens left of STL_BUDGET in this Churn, and tokens charged since cold reset (R317, R323). -/
  left     : Word
  charged  : BitVec 64
  /-- Queue shares, keyed by die × 16 + queue number. -/
  queues   : AMap (List QEntry)
  /-- Segments keyed by tile, inboxes keyed by die (R126). -/
  segs     : AMap (List Item)
  inbox    : AMap (List Item)
  /-- Tile store save areas, keyed by tile: bytes and poison marks (R75). -/
  saves    : AMap (AMap Byte × List Nat)
  homeTurn : Nat
  /-- Rotation of generation batches: model × 4 + die to the SEQ_ID included last (R309). -/
  rotation : AMap Nat
  /-- A Stall reset waits for the end of the Stall's open slots (R497). -/
  resetting : Bool
  /-- The Stall's slots open when the reset began, that have not ended. -/
  resetSlots : List Nat
  /-- Graph search. -/
  disps     : List Dispatching
  walks     : List Walk
  idxCmds   : List IdxCmd
  /-- B-dies whose walk dispatcher has taken a wheel turn that it has still to use (R196), and those whose dispatcher holds a refusal for a full share, with its
request (R19). -/
  dispTurns : List Die
  codeHolds : List (Die × Word)
  /-- Walk results posted, row cache hits and output tokens accepted since cold reset. -/
  nWalks    : BitVec 64
  nHits     : BitVec 64
  nTokens   : BitVec 64
  /-- Gather. -/
  jobs      : List GJob
  reads     : List GRead
  nextJob   : Nat
  tblCmds   : List TblCmd
  /-- The row caches of the Stall, and the counters of its sketches (R251, R252). -/
  rowCache  : List RowItem
  sketch    : AMap Nat
  /-- Text. -/
  text      : List TextJob
  nextText  : Nat
  masks     : List MaskSlot
  vocabCmds : List (Cmd × Nat)
  retires   : List Cmd
  /-- KV pages of sequences that the grammar ended, freed after the slots open on the home die then (R288): slots, model, pages. -/
  lingering : List (List Nat × Nat × List Nat)
  /-- Keys whose builder ended before its handle was ready while prompts waited for it: the oldest of them builds (R315). -/
  heirs     : List PfxKey
deriving DecidableEq, Repr

def Serving.reset : Serving :=
  { keep := Retained.empty, nextCont := 1, nextHandle := 0, loading := [], requests := [], batches := [], handles := [], nextPfx := 0, cancels := [],
    left := 0xFFFFFFFF, charged := 0, queues := [], segs := [], inbox := [], saves := [], homeTurn := 0, rotation := [], resetting := false, resetSlots := [],
    disps := [], walks := [], idxCmds := [], dispTurns := [], codeHolds := [], nWalks := 0, nHits := 0, nTokens := 0, jobs := [], reads := [], nextJob := 0, tblCmds := [], rowCache := [], sketch := [], text := [],
    nextText := 0, masks := [], vocabCmds := [], retires := [], lingering := [], heirs := [] }

end Sys2Proof.Machine
end

