-- ==== Sys2Proof/Machine/TypesMem.lean ====
section
/-! DEFINITION. The types of memory: allocations, staging pages, images, the write buffer and the flash translation layer (ch. 14). -/
namespace Sys2Proof.Machine

inductive Tier where
  | hbm | flash | pool
deriving DecidableEq, Repr

/-- A tier change in progress (R351): its command (none: a demotion), the new tier and placement. -/
structure TierMove where
  cmd   : Option Cmd
  dest  : Tier
  place : Nat
  groups : List Nat
  /-- Pages moved: pages move one at a time, in ascending address. -/
  done  : Nat
  /-- Flash pages of the page in progress that a flash turn has still to read (FLASH to HBM). -/
  reads : List Nat
deriving DecidableEq, Repr

/-- An allocation (R333–R336). -/
structure Alloc where
  base    : Nat
  /-- Size in 2 MiB units. -/
  units   : Nat
  tier    : Tier
  retain  : Bool
  cache   : Bool
  demote  : Bool
  place   : Nat
  commons : Bool
  /-- Placement group set of an HBM allocation (R327). -/
  groups  : List Nat
  peer    : BitVec 16
  exp     : BitVec 8
  /-- Churn number of its last access. -/
  lastUse : Nat
  /-- Dirty pages of a RETAIN allocation (R339). -/
  dirty   : List Nat
  /-- MEM_ALLOC waits for the zero-fill. -/
  zeroing : Option Cmd
  move    : Option TierMove
  /-- MEM_FREE waits for a running SYNC or change. -/
  freeing : Option Cmd
  /-- A withdrawn import: its reads return poison (R354). -/
  withdrawn : Bool
  /-- Made by the loader for a container's constants (R113): no command names it. -/
  device  : Bool
  /-- Pages of an HBM allocation that a demotion had moved to flash when it was stopped (R350). -/
  upTo    : Nat
deriving DecidableEq, Repr

/-- A staging page (R340): the page it holds, whether it is dirty, and whether its fill from flash is under way. -/
structure Staged where
  base  : Nat
  page  : Nat
  dirty : Bool
  filling : Bool
deriving DecidableEq, Repr

/-- A line of a base cache (R329–R331): the Stall and the way that hold it, its key (the key of its first byte / 64), and whether its home is older than it. Its bytes
stand in `MemUnit.cells`, which holds the newest bytes of every address (log 10). -/
structure CacheLine where
  stall : StallId
  way   : Nat
  key   : Nat
  dirty : Bool
deriving DecidableEq, Repr

/-- An erase block of flash in use (R356): the one image whose data it holds, by slot (65,536: PF0), and the NAND pages programmed in it. -/
structure FlashBlock where
  owner : Nat
  pages : Nat
deriving DecidableEq, Repr

structure Export where
  num  : Nat
  base : Nat
  peer : BitVec 16
deriving DecidableEq, Repr

/-- A SYNC between its copies and its commit record (R344): its command and its range. -/
structure SyncRun where
  cmd   : Cmd
  lo    : Nat
  hi    : Nat
  /-- Pages (by address / 65,536) that are still to be copied into the write buffer. -/
  left  : List Nat
deriving DecidableEq, Repr

/-- Memory state of one function's address space. -/
structure FnMem where
  allocs  : List Alloc
  /-- Least recently used first. -/
  staged  : List Staged
  syncs   : List SyncRun
  exports : List Export
  qfail   : Word
  /-- Sectors (by address / 4,096) in the write-buffer share, oldest first, and whether a commit record covers the copy (R341, R342). -/
  wbuf    : List (Nat × Bool)
  /-- Pages (by address / 65,536) that wait to be copied into the share. -/
  copyQ   : List Nat
  /-- Where the flash translation layer has placed each sector: 0, or its NAND page + 1 (R355). -/
  secs    : AMap Nat
  /-- What the sectors written back hold, in flash or still in the share, by address, and the poisoned blocks among them: what the next commit record of a range
  covers (R342, R440). -/
  back    : List Host.Cell
  backMarks : List Nat
  /-- NAND pages that wait to be read in a flash turn. -/
  rdQ     : List Nat
  /-- 64-byte blocks of imports, by address / 64, that have come over the fabric for an access that waits for them (R354). -/
  poolIn  : List Nat
  /-- MEM_QUERY commands whose record waits to be written. -/
  queries : List Cmd
  /-- Ranges freed since the last commit record: base, bytes and flash units. What an image holds of them is released with it (R337). -/
  gone    : List (Nat × Nat × Nat)
deriving DecidableEq, Repr

def FnMem.reset : FnMem := { allocs := [], staged := [], syncs := [], exports := [], qfail := 0, wbuf := [], copyQ := [], secs := [], back := [], backMarks := [], rdQ := [], poolIn := [], queries := [], gone := [] }

/-- The flash state of one lessee: its committed state (R342, R352). -/
structure Image where
  slot    : Nat
  gen     : Nat
  /-- The header unwraps under the device's wrapping key (R464). -/
  good    : Bool
  key     : Nat
  allocs  : List Alloc
  /-- Where its committed sectors stand (R342, R355). -/
  secs    : AMap Nat
  cells   : List Host.Cell
  /-- Poisoned blocks among them: the mark moves with the block (R440). -/
  marks   : List Nat
  keep    : Retained
  saves   : AMap (AMap Byte × List Nat)
  /-- The stepping that wrote the image's code cache (R60). -/
  step    : BitVec 8
deriving DecidableEq, Repr

/-- A provider command (R350, R352) in progress. -/
inductive ProvCmd where
  | demote (n : StallId) (target : Nat) (freed skipped : Nat) (left : List Nat)
  | imgCreate
  | imgDelete (slot gen : Nat)
deriving DecidableEq, Repr

/-- A die pair's flash translation layer counters (R355–R359). -/
structure FlashSt where
  hostW : BitVec 64
  nandW : BitVec 64
  /-- Erase counts and read counts by block (die pair × 2^20 + block), retired blocks. -/
  erases : AMap Nat
  reads  : AMap Nat
  retired : List Nat
  /-- The BCLK of each block's last patrol read (R358). -/
  patrols : AMap Nat
  /-- Blocks in use, by number (R356), and those whose data moves in the provider's leftover turns, with `true` for a refresh (R357, R358). -/
  blocks : AMap (Option FlashBlock)
  moving : List (Nat × Bool)
  /-- Blocks below the 1 % spare level have been reported, per die pair. -/
  low   : List Nat
  warned : Bool
  /-- Shortfall of spare blocks in 2 MiB units (R359). -/
  short : Nat
deriving DecidableEq, Repr

structure MemUnit where
  fns    : Vector FnMem 17
  /-- The newest bytes of every space, by key (`memKey`), and the poisoned 64-byte blocks. -/
  cells  : List Host.Cell
  poison : List Nat
  images : List Image
  /-- The images as their last commit record known to have left the write buffer has them (R429). -/
  onFlash : List Image
  nextGen : Nat
  prov   : Option ProvCmd
  /-- The BCLK in which the provider command began: its age among the commands that the provider's flash turns serve (R64). -/
  provAt : Nat
  presStatus : Code
  presSkipped : BitVec 16
  pfreed : Word
  flash  : FlashSt
  /-- Retired 4 KiB units by channel group (R446). -/
  gret   : AMap Nat
  /-- Channel groups that left the Commons and have not been zero-filled since (R470). -/
  unclean : List Nat
  /-- The base cache of each B-die: its lines, least recently used first (R329, R330). -/
  cache   : Vector (List CacheLine) 4
  /-- Bytes that wait for turns of a ring link's wheel lane (R14, R80), by link, direction and owner. -/
  ring    : AMap Nat
deriving DecidableEq, Repr

end Sys2Proof.Machine
end

