-- ==== Sys2Proof/Machine/TypesDevice.lean ====
section
/-! DEFINITION. The types of the optical fabric (ch. 15), the power stage (ch. 17), error handling (ch. 18), security (ch. 19) and management (ch. 20). -/
namespace Sys2Proof.Machine

/-! ### Optical fabric -/

/-- STATE of Table 15.2. -/
inductive PortState where
  | disabled | laser | align | fec | exchange | active | down
deriving DecidableEq, Repr

/-- A flit kept until it is acknowledged (R370), and the lane group that carried it. -/
structure SentFlit where
  flit  : Flit
  group : Nat
deriving DecidableEq, Repr

structure Port where
  st      : PortState
  /-- Lanes in use: 8, 4, 2 or none (R364), and the active lane groups. -/
  width   : Nat
  groups  : List Nat
  peer    : Option (BitVec 8 × PortId)
  peerWidths : BitVec 3
  /-- Lanes faulty at either end. -/
  faults  : BitVec 8
  rtt     : BitVec 20
  fecc    : BitVec 64
  fecu    : BitVec 64
  replays : Word
  laserTemp : Byte
  /-- BCLK at which the port entered its state (R366). -/
  stAt    : Nat
  /-- Uncorrectable codewords of a lane group in the 1 ms interval that is running: group, interval, count (R367). -/
  errs    : List (Nat × Nat × Nat)
  /-- Sender: next FSEQ, unacknowledged flits oldest first, the last NAK's FSEQ and how many in a row, and slots not yet in a flit. -/
  txSeq   : BitVec 12
  replay  : List SentFlit
  nakSeq  : BitVec 12
  nakRun  : Nat
  stream  : List Slot
  /-- Receiver: last FSEQ taken in order, flits that came ahead of it, a NAK to send, slots of a packet not whole, packets not forwarded, credit to return by class. -/
  rxLast  : BitVec 12
  rxHold  : List Flit
  nakDue  : Bool
  partial_ : List Slot
  inQ     : List Packet
  owe     : AMap Nat
  /-- Credit held by class, in 256-byte units (R371). -/
  credit  : AMap Nat
  /-- Output queues by class (R375), and MARK packets for which class 16 has no room yet (R392). -/
  outQ    : AMap (List Packet)
  marks   : List Packet
  /-- The rotation of R384: pass within the round, and the class that had the last cell. -/
  pass    : Nat
  last    : Option Nat
  /-- Policer and shaper buckets by class in 1/88 byte, with the BCLK of their value; none listed: full (R387, R388). -/
  pol     : AMap (Option (Nat × Nat × Nat))
  shp     : AMap (Option (Nat × Nat))
  red     : AMap (BitVec 16)
  yel     : AMap (BitVec 16)
  /-- The gate entry in force and the BCLK at which it began (R389). -/
  gate    : Nat
  gateAt  : Nat
deriving DecidableEq, Repr

def Port.reset : Port :=
  { st := .disabled, width := 0, groups := [], peer := none, peerWidths := 0, faults := 0, rtt := 0, fecc := 0, fecu := 0, replays := 0, laserTemp := 0, stAt := 0, errs := [],
    txSeq := 0, replay := [], nakSeq := 0, nakRun := 0, stream := [], rxLast := 0xFFF, rxHold := [], nakDue := false, partial_ := [], inQ := [], owe := [], credit := [], outQ := [], marks := [],
    pass := 0, last := none, pol := [], shp := [], red := [], yel := [], gate := 0, gateAt := 0 }

/-- What a transaction of a Stall does (R380). -/
inductive TxnKind where
  /-- A dmain of a tile reads blocks of a pool allocation. -/
  | read (t : TileId) (tag : Fin 16) (ga blocks : Nat)
  /-- A dmaout of a tile writes blocks. -/
  | write (t : TileId) (tag : Fin 16) (ga blocks : Nat)
  | amo (t : TileId) (reg : Fin 32) (ga : Nat) (addend : BitVec 64)
  /-- An engine, a host copy or a command reads blocks of a pool allocation, or writes them. -/
  | fetch (die : Die) (ga blocks : Nat)
  | put (die : Die) (ga : Nat) (bytes : List Byte) (marks : List Bool)
  /-- A gather reads part `part` of a row for the read that entry `job` and key name (R240). -/
  | part (die : Die) (table row part : Nat) (got : List (Nat × List Byte))
deriving DecidableEq, Repr

structure Txn where
  tid   : Nat
  kind  : TxnKind
  since : Nat
deriving DecidableEq, Repr

structure Fabric where
  ports   : Vector Port 32
  laserOk : Vector Bool 8
  /-- Transactions outstanding, and those that wait for a TID, by Stall. -/
  txns    : Vector (List Txn) 16
  want    : Vector (List TxnKind) 16
  /-- TIDs whose transactions ended without a response, oldest first: a response that still comes is discarded (R381). -/
  late    : Vector (List Nat) 16
  /-- Packets of an owner (0–15 a Stall, 16 the provider) that wait for a slice turn, by die × 17 + owner. -/
  epOut   : AMap (List Packet)
  /-- Packets injected on a die and not forwarded; packets delivered to a die and not taken. -/
  inject  : AMap (List Packet)
  epIn    : AMap (List Packet)
  /-- Flits sent, oldest first. -/
  sent    : List (PortId × Flit)
  syncErr : BitVec 16
  /-- BCLK at which a MARK of the port followed was last taken, or its absence reported (R392). -/
  markAt  : Nat
  /-- BCLK by which the next boundary is moved (R392). -/
  adjust  : Int
deriving DecidableEq, Repr

def Fabric.reset : Fabric :=
  { ports := Vector.replicate 32 Port.reset, laserOk := Vector.replicate 8 true, txns := Vector.replicate 16 [], want := Vector.replicate 16 [], late := Vector.replicate 16 [], epOut := [],
    inject := [], epIn := [], sent := [], syncErr := 0, markAt := 0, adjust := 0 }

/-! ### Power -/

/-- Why the power stage commits the write buffer (R424, R429, R435). -/
inductive CommitCause where
  | holdup
  | rail (r : Nat)
  | trip (g : Nat)
  /-- The write-buffer programming of a device-fatal error (R444). -/
  | fatal
deriving DecidableEq, Repr

/-- A disturbance in progress: KIND of PWR_DIST, its first BCLK and its extreme voltage. -/
structure Disturbance where
  kind  : Nat
  since : Nat
  v     : BitVec 16
deriving DecidableEq, Repr

structure Power where
  /-- Input present, VSTBY in regulation, inrush limit in force (R419). -/
  applied : Bool
  vstby   : Bool
  inrush  : Bool
  /-- Input switch open, running from the bank (R423). -/
  riding  : Bool
  /-- BCLK since which the input has stayed within 40–60 V, and a sideband POWER_ON that waits for the conditions of R499. -/
  rangeAt : Option Nat
  powerReq : Bool
  dist    : Option Disturbance
  distReg : Word
  distV   : BitVec 16
  dips    : Nat
  vin     : BitVec 16
  vmin    : BitVec 16
  vmax    : BitVec 16
  iin     : BitVec 16
  pinMs   : BitVec 16
  pinChurn : BitVec 16
  ripple  : BitVec 16
  energy  : BitVec 64
  bankV   : BitVec 16
  bankC   : BitVec 16
  vres    : BitVec 16
  /-- Write-buffer cap in bytes under R422; none while a full bank holds the reserve. -/
  cap     : Option Nat
  /-- Steps of R428 completed, 0–8; rails turned on and in regulation, by rail; their readings. -/
  steps   : Nat
  rails   : Vector Bool 22
  mv      : Vector (BitVec 16) 22
  amps    : Vector (BitVec 16) 22
  temps   : Vector (BitVec 8) 54
  tmax    : Vector (BitVec 8) 54
  commit  : Option CommitCause
  /-- The 256 bytes of MRAM that R491 writes before a power-down: PDOWN kind, disturbance, and the failed rail or sensor group. -/
  mram    : Option (Nat × Word × BitVec 16 × Nat)
  /-- The hottest C-die group has exceeded 85 °C since the last count (R489). -/
  hot     : Bool
  /-- Strap contacts as sampled (R507). -/
  strap   : BitVec 2
  page    : BitVec 8
  /-- PMBus status: CML, a rail fault, a temperature limit, and STATUS_INPUT (R436). -/
  cml     : Bool
  pmRail  : Bool
  pmTemp  : Bool
  pmInput : BitVec 8
deriving DecidableEq, Repr

/-! ### Errors -/

/-- An error record (Table 18.3). -/
structure ErrRec where
  source   : BitVec 8
  severity : Nat
  stall    : Option StallId
  action   : Nat
  loc      : Nat
  addr     : Nat
  churn    : BitVec 64
  count    : Word
  synd     : Word
deriving DecidableEq, Repr

structure Ras where
  recs    : List ErrRec
  lost    : BitVec 16
  ce      : BitVec 64
  ue      : BitVec 64
  retired : BitVec 24
  /-- Units in service that wait for a free unit of their group (R446). -/
  pending : List (Nat × Nat)
  /-- Corrected errors by unit (group × 2^24 + unit), at most 1,024 units to a die pair (R445). -/
  counts  : AMap Nat
  /-- Failed resends in a row by ring link. -/
  resends : Vector Nat 8
deriving DecidableEq, Repr

def Ras.reset : Ras := { recs := [], lost := 0, ce := 0, ue := 0, retired := 0, pending := [], counts := [], resends := Vector.replicate 8 0 }

/-! ### Security -/

/-- A verified component (Table 19.2): KIND, SVN, VERSION, SHA-384 of header and body, and the body of a CFG. -/
structure Component where
  kind    : Nat
  svn     : Nat
  version : Nat
  digest  : List Byte
  body    : List Byte
deriving DecidableEq, Repr

/-- The configuration record (Table 19.4). -/
structure CfgRecord where
  ssvid : Nat
  ssdid : Nat
  limitMax : Nat
  bankNom : Nat
  hostWidth : Nat
  spdmVf : Bool
deriving DecidableEq, Repr

/-- A staging under way: where the bundle lies and its length (R462). -/
structure FwRun where
  addr  : Nat
  bytes : Nat
deriving DecidableEq, Repr

/-- A responder context (R474): how far the connection has come, and its session. -/
structure SpdmCtx where
  version : Bool
  caps    : Bool
  algs    : Bool
  /-- A secure session: false in its handshake, true once FINISH has come. -/
  session : Option Bool
  /-- Key updates in the session. -/
  updates : Nat
deriving DecidableEq, Repr

def SpdmCtx.reset : SpdmCtx := ⟨false, false, false, none, 0⟩

/-- An IDE stream (R415). -/
structure IdeStream where
  secure : Bool
  key    : Option Nat
deriving DecidableEq, Repr

structure Sec where
  idOk      : Bool
  staged    : Bool
  trialNext : Bool
  trial     : Bool
  fallback  : Bool
  /-- Running slot: false A, true B; the slot that the next reset boots. -/
  slot      : Bool
  bootNext  : Bool
  bundleA   : List Component
  bundleB   : List Component
  krev      : BitVec 8
  floors    : Vector Nat 4
  kslots    : BitVec 18
  scrub     : Vector (Bool × BitVec 24) 16
  cmd       : Option FwRun
  result    : Code
  reason    : Nat
  cfg       : CfgRecord
  ctx       : Vector SpdmCtx 17
  /-- CHN_NUM named by the Stall certificate of a FRESH Stall (R472). -/
  certs     : Vector (Option (BitVec 64)) 16
  streams   : Vector IdeStream 5
  /-- The bundle received so far in recovery (R459). -/
  recovery  : List Byte
deriving DecidableEq, Repr

/-! ### Management -/

/-- A log record (Table 20.5). -/
structure LogRec where
  ty    : Nat
  unset : Bool
  pos   : Word
  rtc   : BitVec 64
  seq   : BitVec 64
  data  : List Byte
deriving DecidableEq, Repr

/-- A READ of the log in progress: where it copies to, the first segment and how many it asked for, and the number of segments it has passed (Table 20.9). -/
structure LogRun where
  addr  : Nat
  first : Nat
  n     : Nat
  past  : Nat
deriving DecidableEq, Repr

/-- A sealed segment (R488, Table 20.6). -/
structure Segment where
  number : Nat
  first  : BitVec 64
  recs   : List LogRec
  prev   : List Byte
  alias_ : List Byte
  sig    : List Byte
deriving DecidableEq, Repr

structure Mgt where
  /-- STAGE of MGT_BOOT: 0 no power, 1–8 a phase, 9 READY, 10 standby, 11 fatal; 12 recovery (R456, log 61). -/
  stage   : Nat
  cause   : Nat
  pdown   : Nat
  /-- Phases 7 and 8 complete (R498). -/
  done7   : Bool
  done8   : Bool
  /-- The phases of a warm reset are running. -/
  warm    : Bool
  perst   : Bool
  linkUp  : Bool
  /-- The RTC: its value at a BCLK, and whether it waits for MGT_RTC_SET (R481, R482). -/
  rtc     : BitVec 64
  rtcAt   : Nat
  rtcUnset : Bool
  /-- Power-on seconds at a BCLK, cycles, starts. -/
  pos     : Nat
  posAt   : Nat
  tcyc    : Word
  starts  : Word
  logSeq  : BitVec 64
  unsealed : List LogRec
  segments : List Segment
  nextSeg : Nat
  sealedAt : Nat
  hourlyAt : Nat
  dailyAt : Nat
  wearAt  : Nat
  /-- Input energy of earlier power-ups in mJ (R488). -/
  pastMj  : Nat
  /-- BCLK for which each laser bank has been lit, and the BCLK since which it is lit (R489). -/
  laserSum : Vector Nat 8
  litAt   : Vector (Option Nat) 8
  /-- Alias certificates that have signed a segment (R490). -/
  aliases : List (List Byte)
  /-- A log command runs; its result (Table 20.9). -/
  logRun  : Option LogRun
  logRes  : Code
  telem   : List Word
  eid     : BitVec 8
  /-- Restart times of the fixed timers. -/
  trialAt : Nat
deriving DecidableEq, Repr

end Sys2Proof.Machine
end

