-- ==== Sys2Proof/Machine/State.lean ====
section
/-! DEFINITION. The state of the FJX-9140, all of it plain data, and the state after reset. -/
namespace Sys2Proof.Machine

/-- The reasons for which a step stops the block: none of the spec's commands does (no constructor is raised).
Kept closed for the host's interface; safe. -/
inductive Fault where
  /-- Never raised. -/
  | none
deriving DecidableEq, Repr

/-- The reasons for which a command has no meaning. Every command of this block has one. -/
inductive Refusal where
  /-- A row whose meaning this model does not give; raised by Dispatch only; safe. -/
  | notModelled (mnemonic : String)
deriving DecidableEq, Repr

/-- A Stall's front: its state, its last command and the step the command has reached (ch. 03). -/
structure StallSt where
  state   : StallState
  last    : Code
  step    : StallStep
  /-- STL_SWITCH.ROW_TIME, 10 ns units, set when the Stall becomes FRESH. -/
  rowTime : BitVec 16
  /-- The BCLK in which its command began: its age among those that the provider's flash turns serve (R64). -/
  since   : Nat
deriving DecidableEq, Repr

def StallSt.reset : StallSt := { state := .dry, last := .ok, step := .idle, rowTime := 0, since := 0 }

/-- An event counter (R483, R484): count, snapshot, its Churn number, and the BCLK of its last restart. -/
structure Counter where
  cnt   : BitVec 48
  snap  : BitVec 48
  snapn : Word
  base  : Nat
deriving DecidableEq, Repr

def Counter.zero : Counter := ⟨0, 0, 0, 0⟩

structure State where
  /-- Commands that wait, first in first out. -/
  pending : List Instr
  /-- BCLK cycles since reset. -/
  now     : Nat
  /-- The model's own counter of free values handed out. -/
  fresh   : Nat
  /-- Register file: values in force, pending class T values, and the two holding maps of R29, keyed by function × 2^28 + lowest offset. -/
  regs    : AMap Word
  pendT   : AMap (Option Word)
  holdRd  : AMap (Option Word)
  holdWr  : AMap (Option Word)
  /-- The value that the last register read, PMBus, sideband, SPDM or DOE command answered, least significant byte first. -/
  answer  : List Byte
  status  : AMap Status
  counters : AMap Counter
  host    : Vector HostFn 17
  /-- Messages sent to the host, oldest first. -/
  sent    : List HostMsg
  stalls  : Vector StallSt 16
  churn   : Churn
  tiles   : Vector Tile 256
  serving : Vector Serving 16
  nextBatch : Nat
  mem     : MemUnit
  fabric  : Fabric
  power   : Power
  ras     : Ras
  sec     : Sec
  mgt     : Mgt
deriving DecidableEq, Repr

/-- Memory after cold reset: nothing allocated, no image, no retired unit (log 4). -/
def MemUnit.reset : MemUnit :=
  { fns := Vector.replicate 17 FnMem.reset, cells := [], poison := [], images := [], onFlash := [], nextGen := 0, prov := none, provAt := 0, presStatus := .ok, presSkipped := 0, pfreed := 0,
    flash := { hostW := 0, nandW := 0, erases := [], reads := [], retired := [], patrols := [], blocks := [], moving := [], low := [], warned := false, short := 0 }, gret := [], unclean := [], cache := Vector.replicate 4 [], ring := [] }

/-- Rails at their nominal voltage in mV, in PAGE order (Table 17.2). -/
def nominalRails : Vector (BitVec 16) 22 :=
  #v[3300, 700, 700, 700, 700, 750, 750, 750, 750, 1800, 1100, 1100, 1100, 1100, 400, 400, 400, 400, 2500, 1200, 900, 3300]
/-- The power stage at READY after a cold start from no power: rails in regulation, the bank full at its nominal capacitance (R420, R428, log 4). -/
def Power.reset : Power :=
  { applied := true, vstby := true, inrush := false, riding := false, rangeAt := some 0, powerReq := false, dist := none, distReg := 0, distV := 0, dips := 0, vin := 0, vmin := 0, vmax := 0, iin := 0,
    pinMs := 0, pinChurn := 0, ripple := 0, energy := 0, bankV := 7200, bankC := 232, vres := 5496, cap := none, steps := 8, rails := Vector.replicate 22 true,
    mv := nominalRails, amps := Vector.replicate 22 0, temps := Vector.replicate 54 0, tmax := Vector.replicate 54 0, commit := none, mram := none, hot := false, strap := 0,
    page := 0, cml := false, pmRail := false, pmTemp := false, pmInput := 0 }

/-- The factory's bundle in slot A (log 4): components whose bytes the spec does not give. -/
def factoryBundle : List Component := [1, 2, 3, 4].map fun k => { kind := k, svn := 0, version := 0, digest := List.replicate 48 0, body := [] }
/-- Security state at READY: identity reconstructed, slot A running, key slots 16 and 17 loaded, every Stall scrubbed (R464, R469, log 4). -/
def Sec.reset : Sec :=
  { idOk := true, staged := false, trialNext := false, trial := false, fallback := false, slot := false, bootNext := false, bundleA := factoryBundle, bundleB := [],
    krev := 0, floors := Vector.replicate 4 0, kslots := 0x30000, scrub := Vector.replicate 16 (true, 0), cmd := none, result := .ok, reason := 0,
    cfg := { ssvid := 0x1F4B, ssdid := 0x9140, limitMax := 2600, bankNom := 232, hostWidth := 16, spdmVf := true }, ctx := Vector.replicate 17 SpdmCtx.reset,
    certs := Vector.replicate 16 none, streams := Vector.replicate 5 ⟨false, none⟩, recovery := [] }

/-- The management controller at READY (R501, log 4). -/
def Mgt.reset : Mgt :=
  { stage := 9, cause := 0, pdown := 0, done7 := true, done8 := true, warm := false, perst := false, linkUp := true, rtc := 0, rtcAt := 0, rtcUnset := false, pos := 0,
    posAt := 0, tcyc := 0, starts := 0, logSeq := 0, unsealed := [], segments := [], nextSeg := 0, sealedAt := 0, hourlyAt := 0, dailyAt := 0, wearAt := 0, pastMj := 0,
    laserSum := Vector.replicate 8 0, litAt := Vector.replicate 8 none, aliases := [], logRun := none, logRes := .ok, telem := List.replicate 64 0, eid := 0, trialAt := 0 }

/-- The machine right after a cold reset has reached READY (Table 20.12): the Churn halted, every Stall DRY, MGT_STATUS.READY raised. -/
def State.reset : State :=
  { pending := [], now := 0, fresh := 0, regs := [], pendT := [], holdRd := [], holdWr := [], answer := [], status := [(0, ⟨0x8, 1, 0⟩), (8, ⟨0x1, 1, 0⟩)], counters := [],
    host := Vector.replicate 17 HostFn.reset, sent := [], stalls := Vector.replicate 16 StallSt.reset, churn := Churn.reset, tiles := Vector.replicate 256 Tile.reset,
    serving := Vector.replicate 16 Serving.reset, nextBatch := 0, mem := MemUnit.reset, fabric := Fabric.reset, power := Power.reset, ras := Ras.reset, sec := Sec.reset,
    mgt := Mgt.reset }

end Sys2Proof.Machine
end

