-- ==== Sys2Proof/Machine/RegMap.lean ====
section
/-! DEFINITION. The device map: blocks, windows and decode masks (R25, R26, R31), and one description of every register: access, class, writable bits, reset
value (chapters 02 to 20). -/
namespace Sys2Proof.Machine

inductive Block where
  | glb | stl (n : StallId) | chn | mem | ftl | fab (p : PortId) | trf | pwr | ras | sec | mgt | txt | src | gth | til (t : TileId)
  | pfPages | vfId (n : StallId) | vfDoor (n : StallId) | vfCnt (n : StallId) | vfRing (n : StallId)
deriving DecidableEq, Repr

inductive RegClass where
  | t | l | q
deriving DecidableEq, Repr

inductive RegKind where
  | ro | wo | status | rw
deriving DecidableEq, Repr

/-- A register: its access code, class, writable bits and reset value; `rwl`: its fields are RWL (R10, R11). -/
structure RegDesc where
  kind  : RegKind
  cls   : RegClass
  mask  : Word
  reset : Word
  rwl   : Bool
deriving DecidableEq, Repr

def rRO : RegDesc := ⟨.ro, .l, 0, 0, false⟩
def rWO : RegDesc := ⟨.wo, .l, 0, 0, false⟩
def rST (m : Word) : RegDesc := ⟨.status, .l, m, 0, false⟩
def rRW (c : RegClass) (m r : Word) : RegDesc := ⟨.rw, c, m, r, false⟩
def rRWL (c : RegClass) (m r : Word) : RegDesc := ⟨.rw, c, m, r, true⟩

/-- Four owner codes of 8 bits from a function of the index (R79). -/
def packOwners (f : Nat → Nat) (j : Nat) : Word :=
  BitVec.ofNat 32 (f (4 * j) + f (4 * j + 1) * 2 ^ 8 + f (4 * j + 2) * 2 ^ 16 + f (4 * j + 3) * 2 ^ 24)

/-- The block-relative offset after the decode mask (R26), its low two bits dropped (R28). -/
def maskOff (off base mask : Nat) : Nat := (off - base) &&& mask &&& 0xFFFFFFFC

/-- The block that a PF0 offset addresses and the decoded offset in it (Table 2.1). -/
def decodePf (off : Nat) : Option (Block × Nat) :=
  if off < 0x10000 then some (.glb, maskOff off 0 0xFF)
  else if off < 0x20000 then
    let n := (off - 0x10000) / 0x1000
    some (.stl (Fin.ofNat 16 n), maskOff off (0x10000 + n * 0x1000) 0x1FF)
  else if off < 0x30000 then some (.chn, maskOff off 0x20000 0x3FFF)
  else if off < 0x40000 then some (.mem, maskOff off 0x30000 0xFFF)
  else if off < 0x50000 then some (.ftl, maskOff off 0x40000 0x3FF)
  else if off < 0x70000 then
    let p := (off - 0x50000) / 0x1000
    some (.fab (Fin.ofNat 32 p), maskOff off (0x50000 + p * 0x1000) 0x3FF)
  else if off < 0x80000 then some (.trf, maskOff off 0x70000 0x7FFF)
  else if off < 0x90000 then some (.pwr, maskOff off 0x80000 0x3FF)
  else if off < 0xA0000 then some (.ras, maskOff off 0x90000 0xFFF)
  else if off < 0xB0000 then some (.sec, maskOff off 0xA0000 0x7FF)
  else if off < 0xC0000 then some (.mgt, maskOff off 0xB0000 0x1FFF)
  else if off < 0xD0000 then some (.txt, maskOff off 0xC0000 0xFFF)
  else if off < 0xE0000 then some (.src, maskOff off 0xD0000 0xFFF)
  else if off < 0xF0000 then some (.gth, maskOff off 0xE0000 0x7FF)
  else if off < 0x100000 then none
  else if off < 0x110000 then
    let t := (off - 0x100000) / 0x100
    some (.til (Fin.ofNat 256 t), maskOff off (0x100000 + t * 0x100) 0xFF)
  else if off < 0x1000000 then none
  else if off < 0x2000000 then some (.pfPages, maskOff off 0x1000000 0xFFFFFF)
  else none

/-- The page of a VF BAR that an offset addresses (Table 2.2). -/
def decodeVf (n : StallId) (off : Nat) : Option (Block × Nat) :=
  if off < 0x1000 then some (.vfId n, maskOff off 0 0xFF)
  else if off < 0x2000 then some (.vfDoor n, maskOff off 0x1000 0xFF)
  else if off < 0x3000 then some (.vfCnt n, maskOff off 0x2000 0x1FF)
  else if off < 0x4000 then some (.vfRing n, maskOff off 0x3000 0x3FF)
  else none

def decodeOff (f : Fn) (off : Nat) : Option (Block × Nat) :=
  match stallOf f with
  | some n => decodeVf n off
  | none => decodePf off

/-- The lowest alias of offset `o` of a block, with the function in bits 28 and up: the key of the register. -/
def regKey : Block → Nat → Nat
  | .glb, o => 16 * 2 ^ 28 + o
  | .stl n, o => 16 * 2 ^ 28 + 0x10000 + n.val * 0x1000 + o
  | .chn, o => 16 * 2 ^ 28 + 0x20000 + o
  | .mem, o => 16 * 2 ^ 28 + 0x30000 + o
  | .ftl, o => 16 * 2 ^ 28 + 0x40000 + o
  | .fab p, o => 16 * 2 ^ 28 + 0x50000 + p.val * 0x1000 + o
  | .trf, o => 16 * 2 ^ 28 + 0x70000 + o
  | .pwr, o => 16 * 2 ^ 28 + 0x80000 + o
  | .ras, o => 16 * 2 ^ 28 + 0x90000 + o
  | .sec, o => 16 * 2 ^ 28 + 0xA0000 + o
  | .mgt, o => 16 * 2 ^ 28 + 0xB0000 + o
  | .txt, o => 16 * 2 ^ 28 + 0xC0000 + o
  | .src, o => 16 * 2 ^ 28 + 0xD0000 + o
  | .gth, o => 16 * 2 ^ 28 + 0xE0000 + o
  | .til t, o => 16 * 2 ^ 28 + 0x100000 + t.val * 0x100 + o
  | .pfPages, o => 16 * 2 ^ 28 + 0x1000000 + o
  | .vfId n, o => n.val * 2 ^ 28 + o
  | .vfDoor n, o => n.val * 2 ^ 28 + 0x1000 + o
  | .vfCnt n, o => n.val * 2 ^ 28 + 0x2000 + o
  | .vfRing n, o => n.val * 2 ^ 28 + 0x3000 + o

def glbReg (o : Nat) : Option RegDesc :=
  if o = 0x000 then some rRO else if o = 0x004 then some (rST 0xFFFF) else if o = 0x008 then some (rRWL .l 0x3FF 0)
  else if o = 0x00C ∨ o = 0x010 ∨ o = 0x014 then some rRO else if o = 0x020 then some rWO else none

def stlReg (o : Nat) : Option RegDesc :=
  if o = 0x000 ∨ o = 0x01C ∨ o = 0x058 ∨ o = 0x060 ∨ o = 0x064 then some rRO
  else if o = 0x004 then some (rST 0xF) else if o = 0x008 then some rWO
  else if o = 0x00C ∨ o = 0x010 ∨ o = 0x014 then some (rRW .q 0xFFFFFFFF 0)
  else if o = 0x018 then some (rRW .l 0xFF 0x08) else if o = 0x020 then some (rRWL .q 0x7 0x1)
  else if o = 0x040 ∨ o = 0x044 then some (rRW .q 0xFFFFFFFF 0x04040404) else if o = 0x048 then some (rRW .q 0xFFFF 0x0404)
  else if o = 0x050 then some (rRW .t 0xFFFFFFFF 0xFFFFFFFF) else if o = 0x054 then some (rRW .q 0x1FFF 0x1000) else none

def chnReg (o : Nat) : Option RegDesc :=
  if o = 0x000 then some (rRW .l 1 0) else if o = 0x004 then some (rRW .t 0x11F 0x007) else if o = 0x008 then some (rST 0x7)
  else if o = 0x00C ∨ o = 0x010 ∨ o = 0x014 ∨ o = 0x018 then some rRO
  else if 0x100 ≤ o ∧ o < 0x140 then some (rRWL .t 0xFFFFFFFF (packOwners (fun i => if i < 48 then i % 16 else 0x10) ((o - 0x100) / 4)))
  else if 0x140 ≤ o ∧ o < 0x160 then some (rRWL .t 0xFFFFFFFF (packOwners (fun i => i % 16) ((o - 0x140) / 4)))
  else if 0x2000 ≤ o ∧ o < 0x4000 then some (rRW .t (if o % 8 = 0 then 0xBFFFFFFF else 0x3FF) 0) else none

def memReg (o : Nat) : Option RegDesc :=
  if o = 0x000 ∨ (0x018 ≤ o ∧ o < 0x02C) then some rRO else if o = 0x004 then some (rST 0x7) else if o = 0x008 then some rWO
  else if o = 0x00C ∨ o = 0x010 ∨ o = 0x014 then some (rRW .l 0xFFFFFFFF 0)
  else if 0x040 ≤ o ∧ o < 0x090 then
    some (if o = 0x050 ∨ o = 0x078 then rRWL .q 0x00FFFFFF 0xFEFFFFFF else rRWL .q 0xFFFFFFFF 0xFFFFFFFF)
  else if 0x100 ≤ o ∧ o < 0x500 then
    let r := o % 0x40
    if r ≤ 0x08 then some (rRW .t 0xFFFFFFFF 0) else if r = 0x0C then some (rRW .q 0xFFFF 0x1000)
    else if r < 0x20 then some (rRWL .q 0xFFFFFFFF 0) else if r ≤ 0x34 then some rRO else none
  else none

def ftlReg (o : Nat) : Option RegDesc :=
  if o = 0x000 then some (rRW .l 1 1) else if o = 0x004 then some (rST 0xF) else if o = 0x008 then some rRO
  else if o = 0x00C then some (rRW .q 0xFFFF 0xC8) else if o = 0x010 then some (rRW .q 0xFFFFFF 0xC350)
  else if o = 0x014 then some (rRW .t 0xFF 0x1E) else if 0x018 ≤ o ∧ o ≤ 0x034 then some rRO else none

def fabReg (o : Nat) : Option RegDesc :=
  if o = 0x000 then some (rRW .l 1 0) else if o = 0x004 then some (rRWL .q 0x7 0x7) else if o = 0x00C then some (rST 0xF)
  else if o = 0x008 ∨ (0x010 ≤ o ∧ o ≤ 0x02C) then some rRO
  else if 0x040 ≤ o ∧ o < 0x050 then some (rRW .q 0xFFFFFFFF 0x03030303) else if o = 0x050 then some (rRW .q 0xFF 0x10) else none

def trfReg (o : Nat) : Option RegDesc :=
  if o = 0x000 then some (rRW .t 0xF 0x8) else if o = 0x004 then some (rST 0x1F) else if o = 0x008 then some (rRWL .q 0xFF 0)
  else if o = 0x00C then some (rRW .t 0xFFFF 0x1F4) else if o = 0x010 then some (rRW .t 0x00FF1F03 0x000A0000) else if o = 0x014 then some rRO
  else if 0x040 ≤ o ∧ o < 0x080 then some (rRW .q 0xF (BitVec.ofNat 32 ((o - 0x40) / 4)))
  else if 0x400 ≤ o ∧ o < 0x800 then some (rRW .t 0x80003F1F 0)
  else if 0x800 ≤ o ∧ o < 0xC00 then some (rRW .q 0x80000FFF 0)
  else if 0x1000 ≤ o ∧ o < 0x5000 then
    (if (o - 0x1000) / 0x10 % 32 ≤ 16 then
      (if o % 16 = 0 then some (rRW .t 0x3 0) else if o % 16 = 12 then some rRO else some (rRW .t 0xFFFFFFFF 0))
     else none)
  else if 0x5000 ≤ o ∧ o < 0x7000 then
    let c := (o - 0x5000) / 8 % 32
    if c ≤ 16 then (if o % 8 = 0 then some (rRW .t 0xFFFFFFFF 0) else some (rRW .t 0x3F (if c = 16 then 16 else 3))) else none
  else if 0x7000 ≤ o ∧ o < 0x8000 then some (if o % 0x80 = 0x7C then rRW .t 0xFF 0x10 else rRW .t 0xFFFFFFFF 0) else none

def pwrReg (o : Nat) : Option RegDesc :=
  if o = 0x000 then some (rST 0xFFF) else if o = 0x004 then some (rRWL .t 0xFFF 0x898) else if o = 0x008 then some (rRWL .q 0x3FF 0x190)
  else if o = 0x00C then some (rRWL .t 0x7FF 0x3CF) else if o = 0x014 then some (rRWL .t 0xFFFFFFFF 0x4646555F)
  else if o = 0x010 ∨ (0x020 ≤ o ∧ o ≤ 0x04C) ∨ (0x100 ≤ o ∧ o < 0x1B0) ∨ (0x200 ≤ o ∧ o < 0x2D8) then some rRO else none

def rasReg (o : Nat) : Option RegDesc :=
  if o = 0x000 then some (rST 0x3F) else if o = 0x008 then some (rRWL .t 0xFF 0x20) else if o = 0x00C then some (rRWL .t 0xFFFF 0x1808)
  else if o = 0x014 then some rWO else if o = 0x004 ∨ (0x010 ≤ o ∧ o ≤ 0x054) ∨ (0x100 ≤ o ∧ o < 0x240) then some rRO else none

def secReg (o : Nat) : Option RegDesc :=
  if o = 0x000 then some (rST 0x7) else if o = 0x008 then some (rRWL .l 0x3 0) else if o = 0x00C then some rWO
  else if o = 0x014 ∨ o = 0x018 then some (rRW .l 0xFFFFFFFF 0) else if o = 0x01C then some (rRW .l 0x7FFFFFF 0)
  else if o = 0x004 ∨ o = 0x010 ∨ o = 0x020 ∨ o = 0x024 ∨ (0x040 ≤ o ∧ o < 0x080) ∨ (0x100 ≤ o ∧ o < 0x140) then some rRO else none

/-- The fields of a counter page entry (Tables 20.2, 20.3). -/
def counterReg (mask : Word) (r : Nat) : Option RegDesc :=
  if r ≤ 0x0C ∨ r = 0x14 then some rRO else if r = 0x10 then some (rRW .t mask 0) else none

def mgtReg (o : Nat) : Option RegDesc :=
  if o = 0x000 then some (rST 0xF) else if o = 0x008 then some (rRWL .l 0x7 0x5) else if o = 0x018 ∨ o = 0x01C then some (rRWL .l 0xFFFFFFFF 0)
  else if o = 0x040 then some rWO else if o = 0x048 ∨ o = 0x04C ∨ o = 0x050 then some (rRW .l 0xFFFFFFFF 0) else if o = 0x054 then some (rRW .l 0x1FFF 0)
  else if o = 0x004 ∨ o = 0x010 ∨ o = 0x014 ∨ (0x020 ≤ o ∧ o ≤ 0x034) ∨ o = 0x058 ∨ (0x100 ≤ o ∧ o < 0x200) then some rRO
  else if 0x1000 ≤ o ∧ o < 0x1800 then counterReg 0x8003F3FF (o % 0x20) else none

/-- The run field, the status register and the per-Stall registers of TXT, SRC and GTH. -/
def engineReg (st cfgMask cfgReset : Word) (cls : RegClass) (o : Nat) : Option RegDesc :=
  if o = 0x000 then some (rRW .l 1 1) else if o = 0x004 then some (rST st) else if o = 0x008 then some rRO
  else if 0x100 ≤ o ∧ o < 0x200 then
    (if o % 0x10 = 0 then some (rRW cls cfgMask cfgReset) else some rRO)
  else none

def gthReg (o : Nat) : Option RegDesc :=
  if o = 0x00C then some (rRW .t 0xFFFF 0x1F4) else if o = 0x010 then some (rRW .t 0xFF 0x40) else engineReg 0xF 0x3F 0 .q o

def tilReg (o : Nat) : Option RegDesc :=
  if o = 0x04 then some (rST 0x7) else if o = 0x08 then some rWO else if o = 0x0C then some { rWO with cls := .q }
  else if o = 0x00 ∨ (0x10 ≤ o ∧ o ≤ 0x2C) then some rRO else none

def vfIdReg (o : Nat) : Option RegDesc :=
  if o = 0x004 then some (rST 0xF) else if o = 0x024 then some (rRW .l 0x11F 0)
  else if o ≤ 0x020 ∨ o = 0x030 ∨ o = 0x034 ∨ o = 0x038 ∨ o = 0x03C then some rRO else none

def doorReg (o : Nat) : Option RegDesc := if o < 0x40 then some rWO else none

def ringReg (o : Nat) : Option RegDesc :=
  if o < 0x200 then
    let r := o % 0x40
    if r = 0x00 then some (rRW .q 0x1FFF00 0) else if r = 0x04 then some (rRW .l 0x3 0)
    else if r ≤ 0x1C then some (rRW .q 0xFFFFFFFF 0) else if r = 0x20 then some (rRW .l 0xFFFFFF 0x1)
    else if r = 0x24 ∨ r = 0x28 then some rRO else none
  else none

/-- The register at a decoded offset of a block; none where the offset is reserved (R27). -/
def regAt : Block → Nat → Option RegDesc
  | .glb, o => glbReg o
  | .stl _, o => stlReg o
  | .chn, o => chnReg o
  | .mem, o => memReg o
  | .ftl, o => ftlReg o
  | .fab _, o => fabReg o
  | .trf, o => trfReg o
  | .pwr, o => pwrReg o
  | .ras, o => rasReg o
  | .sec, o => secReg o
  | .mgt, o => mgtReg o
  | .txt, o => engineReg 0xF 0xF 0x8 .q o
  | .src, o => engineReg 0x7 0xF 0x4 .t o
  | .gth, o => gthReg o
  | .til _, o => tilReg o
  | .pfPages, o =>
    if o = 0x24 then some (rRW .l 0x11F 0) else if 0x1000 ≤ o ∧ o < 0x1040 then some rWO
    else if 0x3000 ≤ o ∧ o < 0x3200 then ringReg (o - 0x3000) else none
  | .vfId _, o => vfIdReg o
  | .vfDoor _, o => doorReg o
  | .vfCnt _, o => counterReg 0x800003FF (o % 0x20)
  | .vfRing _, o => ringReg o

/-- The block that holds a register key (inverse of `regKey` on the lowest alias). -/
def keyBlock (k : Nat) : Option (Block × Nat) :=
  if h : k / 2 ^ 28 < 17 then decodeOff ⟨k / 2 ^ 28, h⟩ (k % 2 ^ 28) else none

/-- The reset value of the register with a key. -/
def regReset (k : Nat) : Word :=
  match keyBlock k with
  | some (b, o) => match regAt b o with
    | some r => r.reset
    | none => 0
  | none => 0

end Sys2Proof.Machine
end

