-- ==== Sys2Proof/Machine/Flags.lean ====
section
/-! DEFINITION. Time, the register file in force, status registers with SEQ, MSI-X signalling and event counters. -/
namespace Sys2Proof.Machine

/-- One BCLK passes: every command takes one of its own (log 1). -/
def State.tick (s : State) : State := { s with now := s.now + 1 }

/-- Jump to a due time that has not passed (log 5). -/
def State.until (s : State) (t : Nat) : State := { s with now := max s.now t }

/-- A free value (log 3): the opaque constant applied to the counter, which advances. -/
def State.free (s : State) : Nat := Config.free s.fresh
def State.useFree (s : State) : State := { s with fresh := s.fresh + 1 }

/-- The value in force of a register. -/
def State.reg (s : State) (b : Block) (o : Nat) : Word := mapGet (regReset (regKey b o)) s.regs (regKey b o)
def State.setReg (s : State) (b : Block) (o : Nat) (v : Word) : State :=
  { s with regs := mapSet (regReset (regKey b o)) s.regs (regKey b o) v }
/-- The value last written: a pending class T value, or the value in force (R42). -/
def State.regWritten (s : State) (b : Block) (o : Nat) : Word := (mapGet none s.pendT (regKey b o)).getD (s.reg b o)

def Status.zero : Status := ⟨0, 0, 0⟩

/-- The key of a status register. -/
def StatReg.code : StatReg → Nat
  | .glb => 0 | .chn => 1 | .mem => 2 | .ftl => 3 | .trf => 4 | .pwr => 5 | .ras => 6 | .sec => 7 | .mgt => 8 | .txt => 9
  | .src => 10 | .gth => 11 | .stl n => 16 + n.val | .vf n => 32 + n.val | .fab p => 64 + p.val | .til t => 256 + t.val

/-- The GLB_STATUS bit that an event of the register also sets (Table 2.5). -/
def StatReg.glbBit : StatReg → BitVec 24
  | .glb => 0 | .vf _ => 0 | .ras => 0 | .pwr => 0x4 | .mgt => 0x8 | .fab _ => 0x10 | .sec => 0x20 | .stl _ => 0x40 | .chn => 0x80
  | .mem => 0x100 | .ftl => 0x200 | .til _ => 0x400 | .src => 0x800 | .gth => 0x1000 | .txt => 0x2000 | .trf => 0x4000

def State.stat (s : State) (r : StatReg) : Status := mapGet Status.zero s.status r.code
def State.setStat (s : State) (r : StatReg) (v : Status) : State := { s with status := mapSet Status.zero s.status r.code v }
/-- A status register as read (R34). -/
def State.statWord (s : State) (r : StatReg) : Word := (s.stat r).seq ++ (s.stat r).bits

/-- Events of a register: the bits are set, and SEQ increments once in the BCLK (R34, R35). -/
def Status.raise (st : Status) (now : Nat) (b : BitVec 24) : Status :=
  { bits := st.bits ||| b, seq := if st.stamp = now then st.seq else st.seq + 1, stamp := now }

/-- A reset other than cold reset that clears a status register increments its SEQ (R37). DESIGN CHOICE: an event of the same BCLK as the reset counts into the same
increment (log 94). -/
def Status.resetWarm (st : Status) (now : Nat) : Status := { bits := 0, seq := st.seq + 1, stamp := now }

def State.modHost (s : State) (f : Fn) (g : HostFn → HostFn) : State := { s with host := s.host.set f (g s.host[f]) }

/-- The selector of counter `k` of an owner: 0–15 a Stall, 16 the provider (R483). -/
def State.selector (s : State) (owner k : Nat) : Word :=
  if h : owner < 16 then s.reg (.vfCnt ⟨owner, h⟩) (0x20 * k + 0x10) else s.reg .mgt (0x1000 + 0x20 * k + 0x10)

/-- The event code that a selector acts as (R485). -/
def selEvent (owner : Nat) (sel : Word) : Nat :=
  let e := sel.toNat % 1024
  if owner < 16 ∧ 0x300 ≤ e then 0 else if e = 0 ∨ (0x0C0 ≤ e ∧ e < 0x300) then 0 else e

/-- Does a selector count event `code` attributed to `who` (none: the provider)? -/
def selCounts (owner : Nat) (sel : Word) (who : Option StallId) (code : Nat) : Bool :=
  sel.getLsbD 31 && selEvent owner sel = code && code ≠ 0 &&
    (if owner < 16 then (match who with | some n => decide (n.val = owner) | none => false)
     else
      match sel.toNat / 2 ^ 16 % 4 with
      | 1 => (match who with | some n => decide (n.val = sel.toNat / 2 ^ 12 % 16) | none => false)
      | 2 => who.isNone
      | _ => true)

/-- Add the weight of an event to every counter that selects it (R483, R487). -/
def State.count (s : State) (who : Option StallId) (code weight : Nat) : State :=
  let add := fun (m : AMap Counter) (owner k : Nat) =>
    if selCounts owner (s.selector owner k) who code then
      let c := mapGet Counter.zero m (owner * 64 + k)
      mapSet Counter.zero m (owner * 64 + k) { c with cnt := c.cnt + BitVec.ofNat 48 weight }
    else m
  let m := (List.range 64).foldl (fun m k => add m 16 k) s.counters
  let m := match who with
    | some n => (List.range 16).foldl (fun m k => add m n.val k) m
    | none => m
  { s with counters := m }

/-- The numbers of Table 16.7. -/
def Code.num : Code → BitVec 8
  | .ok => 0x00 | .widened => 0x01 | .short => 0x02 | .tie => 0x03 | .dupConflict => 0x04 | .invalidText => 0x05 | .cancelled => 0x10 | .overrun => 0x11
  | .sideOverflow => 0x12 | .kernelFault => 0x13 | .poison => 0x14 | .grammarStuck => 0x15 | .grammarViolation => 0x16 | .promptTooLong => 0x17
  | .badDesc => 0x20 | .noStall => 0x21 | .busy => 0x22 | .quota => 0x23 | .cfgReject => 0x24 | .notFound => 0x25 | .loadRefused => 0x26
  | .badIndex => 0x27 | .indexFull => 0x28 | .badTable => 0x29 | .badText => 0x2A | .keyFail => 0x2B | .hostErr => 0x2C

/-- The 64 bytes of a completion entry (Table 12.5). -/
def Completion.bytes (e : Completion) : List Byte :=
  toBytesLE 4 e.tag.toNat ++ toBytesLE 2 e.opcode.toNat ++ [e.status.num, e.stage] ++ toBytesLE 4 e.notes.toNat ++ toBytesLE 4 e.result0.toNat ++ toBytesLE 4 e.result1.toNat ++
    toBytesLE 4 e.promptLen.toNat ++ toBytesLE 4 e.fault.toNat ++ toBytesLE 2 e.kh.toNat ++ toBytesLE 2 0 ++ toBytesLE 4 e.pc.toNat ++ toBytesLE 4 e.batch.toNat ++
    toBytesLE 4 e.firstUs.toNat ++ toBytesLE 4 e.totalUs.toNat ++ toBytesLE 4 e.reason.toNat ++ List.replicate 12 0
/-- Bytes of the host write that a message is (R411, R413). -/
def HostMsg.bytes : HostMsg → Nat
  | .entry _ _ _ e => e.bytes.length
  | .shadow _ _ _ _ _ => 8
  | .msix _ _ => 4
  | .data _ _ b => b.length

def State.halted (s : State) : Bool := !s.churn.running
/-- The owner of a wheel turn: a Stall, the provider, or no one (R78). -/
inductive TurnOwner where
  | stall (n : StallId)
  | provider
  | noOne
deriving DecidableEq, Repr

def ownerOf (c : Nat) : TurnOwner := if c < 16 then .stall (Fin.ofNat 16 c) else if c = 16 then .provider else .noOne
/-- Wheel turn `k`; while the Churn is halted every turn belongs to the provider (R71). -/
def State.wheelOwner (s : State) (k : Nat) : TurnOwner :=
  if s.halted then .provider else ownerOf ((s.reg .chn (0x100 + k % 64 / 4 * 4)).toNat / 2 ^ (8 * (k % 4)) % 256)
/-- The owner of a function's wheel turns (R403). -/
def fnOwner (f : Fn) : TurnOwner := match stallOf f with | some n => .stall n | none => .provider
/-- Does the function issue host requests: its Bus Master Enable is 1, and the wheel has a turn of its own (R71, R401, R403)? -/
def State.hostOpen (s : State) (f : Fn) : Bool := s.host[f].bme && (List.range 64).any fun k => decide (s.wheelOwner k = fnOwner f)

/-- A write to the host issues. -/
def State.sendNow (s : State) (f : Fn) (m : HostMsg) : State := ({ s with sent := s.sent ++ [m] } : State).count (stallOf f) 0x091 m.bytes
/-- Send a message to the host, or hold it while the function issues no host request, and behind those that are held (R401, R403). DESIGN CHOICE: one that nothing
holds issues at once, in no named turn (log 97). -/
def State.send (s : State) (f : Fn) (m : HostMsg) : State :=
  if s.hostOpen f && s.host[f].held.isEmpty then s.sendNow f m else s.modHost f fun h => { h with held := h.held ++ [m] }

/-- Signal an MSI-X vector: a message due while masked sets its PBA bit (R413). -/
def State.signal (s : State) (f : Fn) (vec : Nat) : State :=
  if s.host[f].masked.getLsbD vec then s.modHost f fun h => { h with pba := h.pba ||| BitVec.twoPow 32 vec } else s.send f (.msix f vec)

/-- Signal the event vector of a function when its EVTCFG is enabled (R414). -/
def State.signalEvent (s : State) (f : Fn) (b : Block) (o : Nat) : State :=
  let c := s.reg b o
  if c.getLsbD 8 then s.signal f (c.toNat % 32) else s

/-- Set event bits of one register alone. -/
def State.raiseOne (s : State) (r : StatReg) (b : BitVec 24) : State := s.setStat r ((s.stat r).raise s.now b)

/-- Events of a status register, with the GLB_STATUS summary (Table 2.5) and the event vectors (R414). -/
def State.raise (s : State) (r : StatReg) (b : BitVec 24) : State :=
  let s := s.raiseOne r b
  match r with
  | .vf n => s.signalEvent (vfOf n) (.vfId n) 0x24
  | .glb => s.signalEvent pf0 .pfPages 0x24
  | .ras => s
  | _ => (s.raiseOne .glb r.glbBit).signalEvent pf0 .pfPages 0x24

/-- RING_ERR of a function (R408, R412). -/
def State.raiseRingErr (s : State) (f : Fn) : State :=
  match stallOf f with
  | some n => s.raise (.vf n) 0x4
  | none => s.raise .glb 0x8000

end Sys2Proof.Machine
end

