-- ==== Sys2Proof/Machine/Ops.lean ====
section
/-! DEFINITION. The named operations over state that every family shares: record updates, memory, tile stores, completions. -/
namespace Sys2Proof.Machine

/-- The outcome of a command that completes. -/
abbrev Out := Host.Outcome State Fault Refusal

def State.modTile (s : State) (t : TileId) (g : Tile → Tile) : State := { s with tiles := s.tiles.set t (g s.tiles[t]) }
def State.modStall (s : State) (n : StallId) (g : StallSt → StallSt) : State := { s with stalls := s.stalls.set n (g s.stalls[n]) }
def State.modSrv (s : State) (n : StallId) (g : Serving → Serving) : State := { s with serving := s.serving.set n (g s.serving[n]) }
def State.modFnMem (s : State) (f : Fn) (g : FnMem → FnMem) : State := { s with mem := { s.mem with fns := s.mem.fns.set f (g s.mem.fns[f]) } }
def State.modMem (s : State) (g : MemUnit → MemUnit) : State := { s with mem := g s.mem }
def State.modChurn (s : State) (g : Churn → Churn) : State := { s with churn := g s.churn }
def State.modRing (s : State) (f : Fn) (r : RingId) (g : Ring → Ring) : State :=
  s.modHost f fun h => { h with rings := h.rings.set r (g h.rings[r]) }

def State.ring (s : State) (f : Fn) (r : RingId) : Ring := s.host[f].rings[r]
def State.stallState (s : State) (n : StallId) : StallState := s.stalls[n].state
def State.fresh? (s : State) (n : StallId) : Bool := s.stallState n = .fresh

/-- The block of a function's ring configuration, and the offset of register `o` of pair `r`. -/
def ringBlock (f : Fn) : Block := match stallOf f with | some n => .vfRing n | none => .pfPages
def ringOff (f : Fn) (r : RingId) (o : Nat) : Nat := (if f.val < 16 then 0 else 0x3000) + 0x40 * r.val + o
def State.ringReg (s : State) (f : Fn) (r : RingId) (o : Nat) : Word := s.reg (ringBlock f) (ringOff f r o)

/-! ### Fields of descriptors and records (R8) -/

/-- `n` bytes of a descriptor at byte offset `o`, little-endian. -/
def Desc.field (d : Desc) (o n : Nat) : Nat := d.toNat / 2 ^ (8 * o) % 2 ^ (8 * n)
def Entry.field (e : Entry) (o n : Nat) : Nat := e.toNat / 2 ^ (8 * o) % 2 ^ (8 * n)
/-- `n` bytes at offset `o` of a list of bytes, little-endian. -/
def bytesField (b : List Byte) (o n : Nat) : Nat := ofBytesLE ((b.drop o).take n)
def Cmd.op (c : Cmd) : Nat := Desc.field c.d 0 2
def Cmd.tag (c : Cmd) : Word := BitVec.ofNat 32 (Desc.field c.d 4 4)
def Cmd.fence (c : Cmd) : Bool := Desc.field c.d 2 2 % 2 = 1
/-- The value of `n` bytes as an entry, byte 0 lowest. -/
def entryOfBytes (b : List Byte) : Entry := BitVec.ofNat 512 (ofBytesLE b)
def Entry.bytes (e : Entry) : List Byte := toBytesLE 64 e.toNat
/-- Is `n` bytes at `o` of a list all zero? -/
def bytesZero (b : List Byte) (o n : Nat) : Bool := bytesField b o n = 0

/-! ### Memory (R332, R440) -/

/-- The window of the Commons (Table 14.1). -/
def commonsBase : Nat := 0x800000000000
def commonsTop : Nat := 0x900000000000
/-- 2 MiB, the unit of allocation. -/
def unitBytes : Nat := 0x200000

/-- The key of a byte of an address space: 0–15 a Stall, 16 PF0; the Commons is one space, 17, in its own window. -/
def memKey (f : Fn) (a : Nat) : Nat := (if commonsBase ≤ a ∧ a < commonsTop then 17 else f.val) * 2 ^ 48 + a

/-- The canonical form of memory: addresses strictly rising, no byte listed that is zero. -/
def Memory.wf (m : List Host.Cell) : Bool := mapCanon 0 m

def Alloc.top (a : Alloc) : Nat := a.base + a.units * unitBytes
def Alloc.holds (a : Alloc) (x : Nat) : Bool := decide (a.base ≤ x) && decide (x < a.top)

/-- The allocation that a function reaches at an address (Table 14.1, R55): its own, or a Commons allocation. -/
def State.allocAt (s : State) (f : Fn) (x : Nat) : Option Alloc :=
  if commonsBase ≤ x ∧ x < commonsTop then
    let allowed := match stallOf f with
      | some n => (s.reg (.stl n) 0x20).getLsbD 0
      | none => true
    if allowed then s.mem.fns[pf0].allocs.find? (fun a => a.commons && a.holds x) else none
  else if 0x200000 ≤ x ∧ x < commonsBase then s.mem.fns[f].allocs.find? (fun a => !a.commons && a.holds x)
  else none

/-- Does every byte of a range lie in allocations that the function reaches? `fuel` bounds the allocations crossed. -/
def State.coveredFuel (s : State) (f : Fn) : Nat → Nat → Nat → Bool
  | 0, _, n => n = 0
  | k + 1, x, n =>
    if n = 0 then true
    else match s.allocAt f x with
      | none => false
      | some a => if x + n ≤ a.top then true else s.coveredFuel f k a.top (x + n - a.top)

def State.covered (s : State) (f : Fn) (x n : Nat) : Bool := s.coveredFuel f 4097 x n

/-- May the function write the range (R86, Table 14.1)? A Stall writes no Commons byte. -/
def State.writable (s : State) (f : Fn) (x n : Nat) : Bool :=
  s.covered f x n && (f = pf0 || decide (n = 0) || decide (x + n ≤ commonsBase))

def State.byteAt (s : State) (f : Fn) (x : Nat) : Byte := mapGet 0 s.mem.cells (memKey f x)
/-- `n` bytes of memory, lowest address first. -/
def State.readMem (s : State) (f : Fn) (x n : Nat) : List Byte := (List.range n).map fun i => s.byteAt f (x + i)
def State.readNat (s : State) (f : Fn) (x n : Nat) : Nat := ofBytesLE (s.readMem f x n)

/-- Is any 64-byte block of the range poisoned? A withdrawn import reads as poison (R354). -/
def State.poisoned (s : State) (f : Fn) (x n : Nat) : Bool :=
  (List.range (if n = 0 then 0 else (x + n - 1) / 64 - x / 64 + 1)).any fun i =>
    s.mem.poison.contains (memKey f ((x / 64 + i) * 64) / 64) ||
      (match s.allocAt f ((x / 64 + i) * 64) with | some a => a.withdrawn | none => false)

/-- The poisoned 64-byte blocks of a range, by address. -/
def State.poisonedBlocks (s : State) (f : Fn) (x n : Nat) : List Nat :=
  ((List.range (if n = 0 then 0 else (x + n - 1) / 64 - x / 64 + 1)).map fun i => (x / 64 + i) * 64).filter fun a => s.poisoned f a 1

def modAlloc (base : Nat) (g : Alloc → Alloc) (l : List Alloc) : List Alloc := l.map fun a => if a.base = base then g a else a
def State.modAllocAt (s : State) (f : Fn) (base : Nat) (g : Alloc → Alloc) : State :=
  s.modFnMem f fun m => { m with allocs := modAlloc base g m.allocs }
/-- The Churn number of the last access of the allocations that ranges lie in (R350). -/
def State.touch (s : State) (f : Fn) (l : List (Nat × Nat)) : State :=
  l.foldl (fun s x =>
    match s.allocAt f x.1 with
    | some a => s.modAllocAt (if a.commons then pf0 else f) a.base fun a => { a with lastUse := s.churn.num.toNat }
    | none => s) s

/-- Store bytes at rising keys. -/
def cellsWrite (m : List Host.Cell) (k : Nat) : List Byte → List Host.Cell
  | [] => m
  | b :: bs => cellsWrite (mapSet 0 m k b) (k + 1) bs

/-- The 64-byte blocks that a write of `n` bytes at `k` covers whole: their marks clear (R440). -/
def wholeBlocks (k n : Nat) (b : Nat) : Bool := decide (k ≤ b * 64) && decide (b * 64 + 64 ≤ k + n)

/-- Write bytes with no further effect than the poison rule of R440. -/
def MemUnit.write (m : MemUnit) (k : Nat) (bs : List Byte) : MemUnit :=
  { m with cells := cellsWrite m.cells k bs, poison := m.poison.filter fun b => !wholeBlocks k bs.length b }

def MemUnit.mark (m : MemUnit) (block : Nat) : MemUnit := { m with poison := setInsert m.poison block }

/-! ### Channel groups, tiers and homes (R325, R327, R355) -/

/-- The die pair of a channel group. -/
def groupDie (g : Nat) : Nat := g / 20
/-- The HBM3E stack of a channel group, and the first of its eight pseudo-channels there (R325). -/
def groupStack (g : Nat) : Nat := 5 * (g / 20) + g % 20 / 4
def groupChannel (g : Nat) : Nat := 8 * (g % 4)

/-- The 64 KiB page of an allocation that an address lies in. -/
def Alloc.pageOf (a : Alloc) (x : Nat) : Nat := (x - a.base) / 65536
/-- The tier in which an access meets an address: a page in its old tier until it has moved, in its new one afterwards (R351). -/
def Alloc.tierAt (a : Alloc) (x : Nat) : Tier :=
  let old := if a.tier = .hbm ∧ a.pageOf x < a.upTo then .flash else a.tier
  match a.move with
  | some m => if a.pageOf x < m.done then m.dest else old
  | none => old
/-- The placement group set under which an address stands (R327). -/
def Alloc.groupsAt (a : Alloc) (x : Nat) : List Nat :=
  match a.move with
  | some m => if a.pageOf x < m.done ∧ m.dest = .hbm then m.groups else a.groups
  | none => a.groups
/-- The channel group of an address: unit u goes to the (u mod G)-th group of the set (R327). -/
def Alloc.groupAt (a : Alloc) (x : Nat) : Nat := (a.groupsAt x).getD ((x - a.base) / 4096 % (a.groupsAt x).length) 0
/-- The pseudo-channel of its stack that holds an address: each 512 bytes of a unit go to one, in ascending order (R325, R327). -/
def Alloc.channelAt (a : Alloc) (x : Nat) : Nat := groupChannel (a.groupAt x) + (x - a.base) % 4096 / 512
/-- The die pair on which a flash sector is homed: sector i of an allocation on i mod 4, and an allocation's base is a multiple of four sectors (R355). -/
def sectorDie (sec : Nat) : Die := Fin.ofNat 4 sec
/-- The die pair at which an address has its home, and the only one whose base cache may hold its line (R329). -/
def Alloc.homeDie (a : Alloc) (x : Nat) : Die := if a.tierAt x = .flash then sectorDie (x / 4096) else Fin.ofNat 4 (groupDie (a.groupAt x))

/-- The function whose state holds an allocation: the Commons is PF0's. -/
def Alloc.owner (a : Alloc) (f : Fn) : Fn := if a.commons then pf0 else f
/-- Where the translation layer has a sector: 0 for one that was never programmed. -/
def State.sectorAt (s : State) (f : Fn) (sec : Nat) : Nat := mapGet 0 (s.mem.fns[f]).secs sec
/-- A copy of the sector stands in the write buffer, which serves its reads until it is programmed (R340). -/
def FnMem.buffered (m : FnMem) (sec : Nat) : Bool := m.wbuf.any fun x => x.1 = sec
/-- The staging page that holds a page. -/
def FnMem.stagedAt (m : FnMem) (a : Alloc) (x : Nat) : Option Staged := m.staged.find? fun st => st.base = a.base && st.page = a.pageOf x
/-- FTL_CTRL.RUN lets new flash commands start; while it is 0, reads and write-backs wait (R362). -/
def State.ftlRuns (s : State) : Bool := (s.reg .ftl 0x000).getLsbD 0
/-- Does a read of the sector take a flash command? A sector that was never written reads as zero without one (R336). -/
def State.flashReads (s : State) (f : Fn) (a : Alloc) (x : Nat) : Bool :=
  a.tierAt x = .flash && ((s.mem.fns[a.owner f]).stagedAt a x).isNone && !(s.mem.fns[a.owner f]).buffered (x / 4096) && decide (s.sectorAt (a.owner f) (x / 4096) ≠ 0)

/-! ### The ring of B-dies (R14) -/

/-- The directed links from one B-die to another: link l joins l and l + 1, `true` towards l + 1. The shorter path; of two equal ones that through the lower-numbered
B-die (R14). -/
def ringPath (a b : Die) : List (Die × Bool) :=
  match (b.val + 4 - a.val) % 4 with
  | 1 => [(a, true)]
  | 2 => if (a + 1).val < (a - 1).val then [(a, true), (a + 1, true)] else [(a - 1, false), (a - 2, false)]
  | 3 => [(a - 1, false)]
  | _ => []
/-- The key of an owner's waiting bytes at a link and direction: owners 0–15 a Stall, 16 the provider. -/
def ringKey (x : Die × Bool) (owner : Nat) : Nat := (x.1.val * 2 + (if x.2 then 1 else 0)) * 17 + owner
/-- Bytes that are to cross from one B-die to another in an owner's wheel turns. -/
def crossRing (m : AMap Nat) (a b : Die) (owner bytes : Nat) : AMap Nat :=
  (ringPath a b).foldl (fun m x => mapSet 0 m (ringKey x owner) (mapGet 0 m (ringKey x owner) + bytes)) m

/-! ### The base cache (R329–R331) -/

/-- The way mask of a Stall on a B-die (MEM_WAYSd). -/
def State.wayMask (s : State) (n : StallId) (d : Nat) : Word := s.reg .mem (0x110 + 0x40 * n.val + 4 * d)
/-- The ways of a mask, ascending. -/
def waysIn (w : Word) : List Nat := (List.range 32).filter fun i => w.getLsbD i
/-- The row cache of a Stall on a B-die is the first RCWAYS of its ways there, or all of them (R251, R331). -/
def State.rowWays (s : State) (n : StallId) (d : Nat) : List Nat := (waysIn (s.wayMask n d)).take ((s.reg .gth (0x100 + 0x10 * n.val)).toNat % 64)
/-- The ways in which a Stall's lines are looked up and held: its others (log 10). -/
def State.lineWays (s : State) (n : StallId) (d : Nat) : List Nat := (waysIn (s.wayMask n d)).drop ((s.reg .gth (0x100 + 0x10 * n.val)).toNat % 64)
/-- The set of a line, one of 98,304. -/
def lineSet (key : Nat) : Nat := Config.cacheSet key % 98304

/-- What the lines of an access do: the caches they leave, lookups, 64-byte HBM accesses, flash sectors read in place, and bytes for the ring. -/
structure Access where
  cache : Vector (List CacheLine) 4
  hit   : Nat
  miss  : Nat
  rd    : Nat
  wr    : Nat
  secs  : List Nat
  ring  : AMap Nat
deriving DecidableEq, Repr

/-- The lines of a Stall in one set. -/
def CacheLine.inSet (n : StallId) (key : Nat) (l : CacheLine) : Bool := decide (l.stall = n) && decide (lineSet l.key = lineSet key)
/-- Make room for a line among a Stall's ways in its set: a way in which nothing stands, else that of the least recently used line. The way, the lines left, and
whether the line that leaves is dirty. -/
def makeRoom (l : List CacheLine) (n : StallId) (ways : List Nat) (key : Nat) : Nat × List CacheLine × Bool :=
  let mine := l.filter fun x => x.inSet n key
  match ways.find? fun w => !mine.any fun x => x.way = w with
  | some w => (w, l, false)
  | none => match mine.head? with
    | some v => (v.way, l.filter (· ≠ v), v.dirty)
    | none => (0, l, false)

/-- The home of a line is read: a 64-byte access of the Stall's groups, or a flash sector in place. -/
def State.homeRead (s : State) (f : Fn) (a : Alloc) (addr : Nat) (x : Access) : Access :=
  if s.flashReads f a addr then { x with secs := if x.secs.contains (addr / 4096) then x.secs else x.secs ++ [addr / 4096] }
  else if a.commons ∨ (a.tierAt addr = .flash ∧ ((s.mem.fns[a.owner f]).stagedAt a addr).isNone) then x
  else { x with rd := x.rd + 1 }
/-- The home of a line is written: HBM, or the HBM of its staging page. Without a staging page the write goes to the write buffer (R340). -/
def State.homeWrite (s : State) (f : Fn) (a : Alloc) (addr : Nat) (x : Access) : Access :=
  if a.commons ∨ (a.tierAt addr = .flash ∧ ((s.mem.fns[a.owner f]).stagedAt a addr).isNone) then x else { x with wr := x.wr + 1 }

/-- One 64-byte line of an access by a function from a B-die: `wr` a write, `full` of the whole line. -/
def State.accessLine (s : State) (f : Fn) (die : Die) (wr full : Bool) (x : Access) (line : Nat) : Access :=
  match s.allocAt f (line * 64) with
  | none => x
  | some a =>
    let addr := line * 64
    if a.tierAt addr = .pool then x
    else
      let home := a.homeDie addr
      let key := memKey f addr / 64
      let x := { x with ring := if wr then crossRing x.ring die home f.val 64 else crossRing x.ring home die f.val 64 }
      -- A PF0 write invalidates a Commons line in the ways of every Stall (R331).
      let x := if wr ∧ a.commons then { x with cache := x.cache.map fun l => l.filter (·.key ≠ key) } else x
      match stallOf f with
      | none => if wr then s.homeWrite f a addr x else s.homeRead f a addr x
      | some n =>
        let ways := s.lineWays n home.val
        if !a.cache || ways.isEmpty then (if wr then s.homeWrite f a addr x else s.homeRead f a addr x)
        else
          -- Without staging pages a write to the flash tier goes through to the write buffer (R340).
          let keeps := wr && !(a.tierAt addr = .flash && ((s.mem.fns[a.owner f]).stagedAt a addr).isNone)
          let l := x.cache[home]
          match l.find? fun y => y.stall = n && y.key = key with
          | some y => { x with hit := x.hit + 1, cache := x.cache.set home (l.filter (· ≠ y) ++ [{ y with dirty := y.dirty || keeps }]) }
          | none =>
            let x := if wr && full then x else s.homeRead f a addr x
            let r := makeRoom l n ways key
            { x with miss := x.miss + 1, wr := if r.2.2 then x.wr + 1 else x.wr, cache := x.cache.set home (r.2.1 ++ [⟨n, r.1, key, keeps⟩]) }

/-- The lines of a range. -/
def linesOf (x n : Nat) : List Nat := if n = 0 then [] else (List.range ((x + n - 1) / 64 - x / 64 + 1)).map (· + x / 64)
/-- The NAND pages of flash sectors. -/
def State.locsOf (s : State) (f : Fn) (secs : List Nat) : List Nat := (secs.map fun c => s.sectorAt f c).filter (· ≠ 0)
/-- NAND pages wait to be read in flash turns. -/
def FnMem.askFlash (m : FnMem) (locs : List Nat) : FnMem := { m with rdQ := locs.foldl (fun l x => if l.contains x then l else l ++ [x]) m.rdQ }

/-- Count an event where its weight is not zero. -/
def State.countSome (s : State) (who : Option StallId) (code weight : Nat) : State := if weight = 0 then s else s.count who code weight
/-- Sectors of a function are read from flash: FLASH_RD, and reads in its flash turns. -/
def State.askSectors (s : State) (f : Fn) (secs : List Nat) : State :=
  let locs := s.locsOf f secs
  (s.modFnMem f fun m => m.askFlash locs).countSome (stallOf f) 0x074 locs.length
/-- An access of ranges by a function from a B-die (B-die 0 where the spec names none, log 102): the base cache, the ring and the counts of HBM and flash accesses follow (R14, R329–R331, Table 20.4). -/
def State.access (s : State) (f : Fn) (die : Die) (wr : Bool) (l : List (Nat × Nat)) : State :=
  let x := l.foldl (fun x r => (linesOf r.1 r.2).foldl (fun x i => s.accessLine f die wr (decide (r.1 ≤ i * 64) && decide (i * 64 + 64 ≤ r.1 + r.2)) x i) x)
    (⟨s.mem.cache, 0, 0, 0, 0, [], s.mem.ring⟩ : Access)
  let who := stallOf f
  let s := (s.modMem fun m => { m with cache := x.cache, ring := x.ring }).askSectors f x.secs
  (((s.countSome who 0x070 x.rd).countSome who 0x071 x.wr).countSome who 0x072 x.hit).countSome who 0x073 x.miss

/-- Lines of the keys that meet `p` leave every cache: their homes hold them, or what they hold is gone. -/
def State.dropLines (s : State) (p : Nat → Bool) : State := s.modMem fun m => { m with cache := m.cache.map fun l => l.filter fun x => !p x.key }
/-- The dirty lines of a range are written to their homes (R331, R344). -/
def State.cleanLines (s : State) (f : Fn) (lo hi : Nat) : State :=
  let inside := fun (x : CacheLine) => decide (memKey f lo / 64 ≤ x.key) && decide (x.key * 64 < memKey f lo + (hi - lo))
  let k := (s.mem.cache.toList.map fun l => l.countP fun x => inside x && x.dirty).sum
  (s.modMem fun m => { m with cache := m.cache.map fun l => l.map fun x => if inside x then { x with dirty := false } else x }).countSome (stallOf f) 0x071 k

/-! ### What a read or a write waits for -/

/-- Does a Stall hold a line in its own ways (R330)? -/
def State.lineHeld (s : State) (f : Fn) (line : Nat) : Bool :=
  match stallOf f with
  | some n => s.mem.cache.any fun c => c.any fun y => y.stall = n && y.key = memKey f (line * 64) / 64
  | none => false
/-- The Commons channel groups accept read requests only from the owner of the Commons turn; a line in the reader's own ways needs none (R55, R81). While the Churn
is halted no turn is granted, and PF0 alone reads (R71). -/
def State.commonsOpen (s : State) (f : Fn) (l : List (Nat × Nat)) : Bool :=
  decide (s.churn.commons = some f) || (s.halted && decide (f = pf0)) ||
    l.all fun r => decide (r.1 + r.2 ≤ commonsBase) || decide (commonsTop ≤ r.1) || (linesOf r.1 r.2).all fun i => (s.allocAt f (i * 64)).isNone || s.lineHeld f i
/-- While FTL_CTRL.RUN is 0, a read of flash in place waits (R362); a line in the reader's own ways is not read from flash. -/
def State.flashOpen (s : State) (f : Fn) (l : List (Nat × Nat)) : Bool :=
  s.ftlRuns || l.all fun r => (linesOf r.1 r.2).all fun i => match s.allocAt f (i * 64) with | some a => !s.flashReads f a (i * 64) || s.lineHeld f i | none => true
/-- May these ranges be read now? -/
def State.canRead (s : State) (f : Fn) (l : List (Nat × Nat)) : Bool := s.commonsOpen f l && s.flashOpen f l

/-! ### The flash write buffer (R339–R341, R421, R422) -/

/-- Sectors that an owner's share of the write buffer holds: 15 MiB for a Stall, 16 MiB for the provider (R341). -/
def shareSecs (f : Fn) : Nat := if f.val < 16 then 3840 else 4096
/-- Sectors in the write buffer. -/
def State.bufferSecs (s : State) : Nat := (s.mem.fns.toList.map fun m => m.wbuf.length).sum
/-- Room for `k` more sectors: in the owner's share, under the cap of R422, and while the bank stands at V_RES or above (R421). -/
def State.copyRoom (s : State) (f : Fn) (k : Nat) : Bool :=
  decide ((s.mem.fns[f]).wbuf.length + k ≤ shareSecs f) && decide (s.power.vres ≤ s.power.bankV) &&
    (match s.power.cap with | some c => decide (4096 * (s.bufferSecs + k) ≤ c) | none => true)
/-- Copies of sectors enter a share; a copy that no commit record covers yet gives way to a later one of its sector. -/
def FnMem.putSecs (m : FnMem) (l : List Nat) : FnMem := { m with wbuf := l.foldl (fun b x => if b.contains (x, false) then b else b ++ [(x, false)]) m.wbuf }
/-- The sectors of a page, by address / 65,536. -/
def pageSecs (p : Nat) : List Nat := (List.range 16).map (· + 16 * p)
/-- The bytes of a function's space at the addresses that meet `inside`, by address, and the poisoned blocks among them, by address / 64. -/
def State.cellsIn (s : State) (f : Fn) (inside : Nat → Bool) : List Host.Cell :=
  (s.mem.cells.filter fun x => decide (x.1 / 2 ^ 48 = f.val) && inside (x.1 % 2 ^ 48)).map fun x => (x.1 % 2 ^ 48, x.2)
def State.marksIn (s : State) (f : Fn) (inside : Nat → Bool) : List Nat :=
  (s.mem.poison.filter fun b => decide (b * 64 / 2 ^ 48 = f.val) && inside (b * 64 % 2 ^ 48)).map fun b => b * 64 % 2 ^ 48 / 64
/-- Replace what a map of bytes, and the marks beside it, hold of some addresses. -/
def putCells (m : List Host.Cell) (inside : Nat → Bool) (new : List Host.Cell) : List Host.Cell := new.foldl (fun c x => mapSet 0 c x.1 x.2) (mapDrop inside m)
def putMarks (m : List Nat) (inside : Nat → Bool) (new : List Nat) : List Nat := new.foldl setInsert (m.filter fun b => !inside (b * 64))
/-- Bytes are written back: the flash side holds them as they stand now. -/
def State.writeBack (s : State) (f : Fn) (inside : Nat → Bool) : State :=
  let cells := s.cellsIn f inside
  let marks := s.marksIn f inside
  s.modFnMem f fun m => { m with back := putCells m.back inside cells, backMarks := putMarks m.backMarks inside marks }
/-- Does an address lie in a page? -/
def inPage (p x : Nat) : Bool := decide (x / 65536 = p)
/-- A page has been dealt with: the SYNCs that wait for it wait no longer. -/
def FnMem.settlePage (m : FnMem) (p : Nat) : FnMem := { m with syncs := m.syncs.map fun r => { r with left := r.left.filter (· ≠ p) } }
/-- A page is copied into the share, its dirty lines first (R331): its dirty bit clears (R339). -/
def State.copyPage (s : State) (f : Fn) (p : Nat) : State :=
  let s := (s.cleanLines f (p * 65536) (p * 65536 + 65536)).writeBack f (inPage p)
  s.modFnMem f fun m =>
    { (m.putSecs (pageSecs p)).settlePage p with
        allocs := m.allocs.map fun a => { a with dirty := a.dirty.filter fun q => a.base / 65536 + q ≠ p }
        staged := m.staged.map fun x => if x.base / 65536 + x.page = p then { x with dirty := false } else x }
/-- Is a page dirty? -/
def FnMem.pageDirty (m : FnMem) (p : Nat) : Bool :=
  (m.allocs.any fun a => a.dirty.any fun q => a.base / 65536 + q = p) || m.staged.any fun x => x.dirty && decide (x.base / 65536 + x.page = p)
/-- Does a staging page still wait for its fill? -/
def FnMem.pageFills (m : FnMem) (p : Nat) : Bool := m.staged.any fun x => x.filling && decide (x.base / 65536 + x.page = p)
/-- Copies that waited enter the share in order while it has room (R341). -/
def State.pumpCopies (s : State) (f : Fn) : State :=
  (s.mem.fns[f]).copyQ.foldl (fun s p =>
    let m := s.mem.fns[f]
    if m.copyQ.head? ≠ some p then s
    else if !m.pageDirty p then s.modFnMem f fun m => { m.settlePage p with copyQ := m.copyQ.drop 1 }
    else if m.pageFills p || !s.copyRoom f 16 then s
    else (s.copyPage f p).modFnMem f fun m => { m with copyQ := m.copyQ.drop 1 }) s

/-! ### Staging pages (R340, R517) -/

/-- The staging pages a function has. -/
def State.stagingPages (s : State) (f : Fn) : Nat :=
  match stallOf f with
  | some n => (s.reg .mem (0x10C + 0x40 * n.val)).toNat
  | none => 256
def Staged.same (x y : Staged) : Bool := decide (x.base = y.base) && decide (x.page = y.page)
/-- The staging page of a page moves to the most recently used end. -/
def FnMem.useStaged (m : FnMem) (st : Staged) : FnMem := { m with staged := (m.staged.filter fun x => !st.same x) ++ [st] }
/-- Reads and writes of staged pages make them the most recently used (R340). -/
def State.refreshStaged (s : State) (f : Fn) (l : List (Nat × Nat)) : State :=
  l.foldl (fun s r => (List.range (if r.2 = 0 then 0 else (r.1 + r.2 - 1) / 65536 - r.1 / 65536 + 1)).foldl (fun s i =>
    let x := if i = 0 then r.1 else (r.1 / 65536 + i) * 65536
    match s.allocAt f x with
    | some a => (match (s.mem.fns[a.owner f]).stagedAt a x with
      | some st => s.modFnMem (a.owner f) fun m => m.useStaged st
      | none => s)
    | none => s) s) s

/-- Take a staging page: a free one, else the least recently used clean one, else the least recently used dirty one, written back through the share. None while
that waits for room, or while every page is being filled (R340, R341). -/
def State.takeStaged (s : State) (f : Fn) (st : Staged) : Option State :=
  let l := (s.mem.fns[f]).staged
  if l.length < s.stagingPages f then some (s.modFnMem f fun m => m.useStaged st)
  else match l.find? fun x => !x.dirty && !x.filling with
    | some v => some (s.modFnMem f fun m => { m with staged := m.staged.filter fun x => !v.same x }.useStaged st)
    | none => match l.find? fun x => !x.filling with
      | some v =>
        if s.copyRoom f 16 then some ((s.copyPage f (v.base / 65536 + v.page)).modFnMem f fun m => { m with staged := m.staged.filter fun x => !v.same x }.useStaged st)
        else none
      | none => none
/-- The sectors of a page that its fill reads from flash. -/
def State.fillSecs (s : State) (f : Fn) (p : Nat) : List Nat := (pageSecs p).filter fun c => !(s.mem.fns[f]).buffered c && decide (s.sectorAt f c ≠ 0)
/-- A page under a FLASH-to-HBM change whose flash reads have begun: writes to it wait (R351). -/
def Alloc.moving (a : Alloc) (x : Nat) : Bool :=
  match a.move with
  | some m => decide (a.pageOf x = m.done) && !m.reads.isEmpty
  | none => false
/-- Make a flash-tier page ready for a write (R340): its staging page is taken, and filled from flash unless the write covers the whole page. The answer says
whether the write may land now. -/
def State.stagePage (s : State) (f : Fn) (a : Alloc) (x : Nat) (whole : Bool) : State × Bool :=
  let o := a.owner f
  if a.moving x then (s, false)
  else if a.tierAt x ≠ .flash then (s, true)
  else if s.stagingPages o = 0 then
    let secs := if !whole && s.flashReads f a x then [x / 4096] else []
    if (secs.isEmpty || s.ftlRuns) && s.copyRoom o 1 then (s.askSectors o secs, true) else (s, false)
  else match (s.mem.fns[o]).stagedAt a x with
    | some st => (s, !st.filling)
    | none =>
      let secs := s.fillSecs o (x / 65536)
      let fill := !whole && !secs.isEmpty
      match s.takeStaged o { base := a.base, page := a.pageOf x, dirty := false, filling := fill } with
      | none => (s, false)
      | some s => (if fill then s.askSectors o secs else s, !fill)

/-- May ranges be written at once? Each flash-tier page among them is staged or can be, and what it merges with can be read. -/
def State.canWrite (s : State) (f : Fn) (l : List (Nat × Nat)) : Bool :=
  let pages := l.flatMap fun r => (List.range (if r.2 = 0 then 0 else (r.1 + r.2 - 1) / 65536 - r.1 / 65536 + 1)).map fun i => if i = 0 then r.1 else (r.1 / 65536 + i) * 65536
  let m := fun (a : Alloc) => s.mem.fns[a.owner f]
  let at_ := pages.filterMap fun x => (s.allocAt f x).map fun a => (a, x)
  let new := at_.filter fun y => y.1.tierAt y.2 = .flash && ((m y.1).stagedAt y.1 y.2).isNone
  let o : Fn := match at_ with | y :: _ => y.1.owner f | [] => f
  let g := s.mem.fns[o]
  (at_.all fun y => !y.1.moving y.2 && !((m y.1).stagedAt y.1 y.2).any fun st => st.filling) &&
    (new.isEmpty || (s.flashOpen f l &&
      (if s.stagingPages o = 0 then s.copyRoom o ((l.map fun r => (r.1 + r.2 + 4095) / 4096 - r.1 / 4096).sum)
       else
         let clean := (s.stagingPages o - g.staged.length) + g.staged.countP fun x => !x.dirty && !x.filling
         decide (new.length ≤ clean) || (decide (0 < clean + g.staged.countP fun x => x.dirty && !x.filling) && s.copyRoom o (16 * (new.length - clean))))))

/-! ### The pool tier (R353, R354) -/

/-- The import that an address of a function lies in. -/
def State.importAt (s : State) (f : Fn) (a : Nat) : Option Alloc :=
  match s.allocAt f a with
  | some x => if x.tier = .pool ∧ !x.withdrawn then some x else none
  | none => none
/-- The 64-byte blocks of a range that lie in imports, in runs of up to four in one import (NBLK 1–4). -/
def poolRuns (imp : Nat → Option Nat) : List Nat → List (Nat × Nat)
  | [] => []
  | a :: rest =>
    match imp a with
    | none => poolRuns imp rest
    | some b => match poolRuns imp rest with
      | (a', k) :: more => if a' = a + 64 ∧ k < 4 ∧ imp a' = some b then (a, k + 1) :: more else (a, 1) :: (a', k) :: more
      | [] => [(a, 1)]
def State.poolBlocks (s : State) (f : Fn) (ranges : List (Nat × Nat)) : List (Nat × Nat) :=
  ranges.flatMap fun r => poolRuns (fun x => (s.importAt f x).map (·.base)) ((linesOf r.1 r.2).map (· * 64))
/-- Transactions of a Stall wait for a TID. -/
def State.wantMore (s : State) (n : StallId) (l : List TxnKind) : State :=
  if l.isEmpty then s else { s with fabric := { s.fabric with want := s.fabric.want.set n (s.fabric.want[n] ++ l) } }
/-- The blocks of a range, as they now stand, go to the modules that export them. -/
def State.putPool (s : State) (f : Fn) (die : Die) (x n : Nat) : State :=
  match stallOf f with
  | some m => s.wantMore m ((s.poolBlocks f [(x, n)]).map fun b => .put die b.1 (s.readMem f b.1 (64 * b.2)) ((List.range b.2).map fun i => s.poisoned f (b.1 + 64 * i) 64))
  | none => s
/-- Have the blocks of ranges that lie in imports come over the fabric? -/
def State.poolHere (s : State) (f : Fn) (l : List (Nat × Nat)) : Bool :=
  (s.poolBlocks f l).all fun b => (List.range b.2).all fun i => (s.mem.fns[f]).poolIn.contains (b.1 / 64 + i)
/-- The blocks that a write covers in part: what it leaves of them is read first. -/
def partBlocks (l : List (Nat × Nat)) : List (Nat × Nat) :=
  l.flatMap fun r => (if r.1 % 64 = 0 then [] else [(r.1, 1)]) ++ (if (r.1 + r.2) % 64 = 0 then [] else [(r.1 + r.2, 1)])
/-- May an engine, a copy or a command read and write these ranges now? -/
def State.ready (s : State) (f : Fn) (reads writes : List (Nat × Nat)) : Bool :=
  s.canRead f reads && s.poolHere f (reads ++ partBlocks writes) && s.canWrite f writes
/-- What it waits for is asked: blocks of imports that are neither here nor on their way. -/
def State.seek (s : State) (f : Fn) (die : Die) (reads writes : List (Nat × Nat)) : State :=
  match stallOf f with
  | some n =>
    let coming := (s.fabric.txns[n]).map (·.kind) ++ s.fabric.want[n]
    s.wantMore n (((s.poolBlocks f (reads ++ partBlocks writes)).filter fun b => !s.poolHere f [(b.1, 64 * b.2)] &&
      !coming.any fun k => match k with | .fetch _ a c => decide (a ≤ b.1) && decide (b.1 + 64 * b.2 ≤ a + 64 * c) | _ => false).map fun b => .fetch die b.1 b.2)
  | none => s

/-- A write that lies within one page of an allocation: dirty bits (R339), staging of flash-tier pages (R340, R517). An operation that writes waits for `canWrite`
or `stagePage` first. -/
def State.writePage (s : State) (f : Fn) (a : Alloc) (x : Nat) (bs : List Byte) (die : Die := 0) : State :=
  let o := a.owner f
  let page := a.pageOf x
  let put := fun (s : State) => s.modMem fun m => m.write (memKey f x) bs
  let s := s.modAllocAt o a.base fun b =>
    { b with lastUse := s.churn.num.toNat, dirty := if (b.retain || decide (b.tier = .flash)) && decide (b.tierAt x = .hbm) then setInsert b.dirty page else b.dirty }
  match a.tierAt x with
  | .hbm => put s
  | .pool => if a.withdrawn then s.count (stallOf f) 0x082 1 else (put s).putPool f die x bs.length
  | .flash =>
    if s.stagingPages o = 0 then ((put s).writeBack o fun y => decide (x ≤ y) && decide (y < x + bs.length)).modFnMem o fun m =>
      m.putSecs ((List.range ((x + bs.length - 1) / 4096 - x / 4096 + 1)).map (· + x / 4096))
    else
      let st : Staged := { base := a.base, page, dirty := true, filling := false }
      match (s.mem.fns[o]).stagedAt a x with
      | some y => (put s).modFnMem o fun m => m.useStaged { y with dirty := true }
      | none => put ((((if bs.length = 65536 then s else s.askSectors o (s.fillSecs o (x / 65536)))).takeStaged o st).getD s)

/-- Global memory is read for a function, from a B-die: its allocations are in use; a Stall's VF counts each poisoned block and names the last (R451); the accesses
follow (R329–R331). -/
def State.noteReads (s : State) (f : Fn) (l : List (Nat × Nat)) (die : Die := 0) : State :=
  let bad := l.flatMap fun x => s.poisonedBlocks f x.1 x.2
  let here := s.poolBlocks f l
  let s := (((s.touch f l).refreshStaged f l).access f die false l).modFnMem f fun m =>
    { m with poolIn := m.poolIn.filter fun b => !here.any fun x => decide (x.1 / 64 ≤ b) && decide (b < x.1 / 64 + x.2) }
  match stallOf f, bad.getLast? with
  | some _, some a => s.modHost f fun h => { h with errUe := BitVec.ofNat 32 (min 0xFFFFFFFF (h.errUe.toNat + bad.length)), errAddr := BitVec.ofNat 64 a }
  | _, _ => s

/-- Write bytes at a global address of a function, page by page. `fuel` bounds the pages. -/
def State.writeMemFuel (s : State) (f : Fn) (die : Die) : Nat → Nat → List Byte → State
  | 0, _, _ => s
  | k + 1, x, bs =>
    if bs.isEmpty then s
    else match s.allocAt f x with
      | none => s
      | some a =>
        let room := 65536 - (x - a.base) % 65536
        (s.writePage f a x (bs.take room) die).writeMemFuel f die k (x + room) (bs.drop room)

/-- Write bytes from a B-die: the accesses follow the write, which has staged the pages it needs. -/
def State.writeMem (s : State) (f : Fn) (x : Nat) (bs : List Byte) (die : Die := 0) : State :=
  (s.writeMemFuel f die (bs.length / 65536 + 2) x bs).access f die true [(x, bs.length)]
def State.writeNat (s : State) (f : Fn) (x n v : Nat) (die : Die := 0) : State := s.writeMem f x (toBytesLE n v) die
/-- Mark a block of a function's space as poisoned. -/
def State.markMem (s : State) (f : Fn) (x : Nat) : State := s.modMem fun m => m.mark (memKey f x / 64)

/-- A choice that the spec leaves to the device, among values that all meet its rules (log 3). -/
def State.pick (s : State) (l : List Nat) : Option Nat := if l.isEmpty then none else l[s.free % l.length]?
/-- The numbers below `k` that are not used. -/
def freeNumbers (k : Nat) (used : Nat → Bool) : List Nat := (List.range k).filter fun i => !used i

/-! ### The tile store (Table 5.2) -/

/-- The first byte of the device area. -/
def tileTop : Nat := 0x1F0000
def Tile.byte (t : Tile) (a : Nat) : Byte := mapGet 0 t.store a
def Tile.read (t : Tile) (a n : Nat) : List Byte := (List.range n).map fun i => t.byte (a + i)
def storeWrite (m : AMap Byte) (a : Nat) : List Byte → AMap Byte
  | [] => m
  | b :: bs => storeWrite (mapSet 0 m a b) (a + 1) bs
/-- Write the tile store; a write of a whole 64-byte block clears its mark (R440). -/
def Tile.write (t : Tile) (a : Nat) (bs : List Byte) : Tile :=
  { t with store := storeWrite t.store a bs, marks := t.marks.filter fun b => !wholeBlocks a bs.length b }
def Tile.mark (t : Tile) (a : Nat) : Tile := { t with marks := setInsert t.marks (a / 64) }
def Tile.marked (t : Tile) (a n : Nat) : Bool := t.marks.any fun b => decide (b * 64 < a + n) && decide (a < b * 64 + 64)
/-- A 32-bit word of the tile store. -/
def Tile.loadWord (t : Tile) (a : Nat) : Word := BitVec.ofNat 32 (ofBytesLE (t.read a 4))
/-- Does a range of the tile store lie in the kernel area? -/
def tsOk (a n : Nat) : Bool := decide (a + n ≤ tileTop)

/-! ### Completions (R411, R413) -/

/-- Signal a ring's vector when its unsignalled completions reach RIRQ.COUNT (R413). -/
def State.signalRing (s : State) (f : Fn) (r : RingId) : State :=
  let cnt := max 1 ((s.ringReg f r 0x20).toNat % 256)
  if (s.ringReg f r 0x04).getLsbD 1 ∧ cnt ≤ (s.ring f r).unsig.length then
    (s.modRing f r fun g => { g with unsig := [] }).signal f ((s.ringReg f r 0x00).toNat / 2 ^ 16 % 32)
  else s

/-- Post a completion: the entry into the next slot, the shadow record, then any MSI-X message due (R411). -/
def State.postEntry (s : State) (c : Cmd) (e : Completion) : State :=
  let g := s.ring c.f c.r
  let size := 2 ^ ((s.ringReg c.f c.r 0x00).toNat / 2 ^ 12 % 16)
  let g' := { g with cqTail := (g.cqTail + 1) % size, posted := (g.posted + 1) % 2 ^ 32, running := g.running.filter (· != c.ord), unsig := g.unsig ++ [s.now] }
  let s := s.modRing c.f c.r fun _ => g'
  let s := s.send c.f (.entry c.f c.r g.cqTail e)
  let s := s.send c.f (.shadow c.f c.r g'.cqTail g'.sqHead g'.posted)
  s.signalRing c.f c.r

/-- A QUOTA failure of a Stall: a completion with QUOTA of a command fetched from a ring of its VF (R347). -/
def State.quotaFail (s : State) (f : Fn) : State :=
  match stallOf f with
  | some n => ((s.modFnMem f fun m => { m with qfail := m.qfail + 1 }).raise .mem 0x1).count (some n) 0x076 1
  | none => s

/-- Complete a command. One whose ring was reset since is posted nowhere (R295, R497). -/
def State.complete (s : State) (c : Cmd) (e : Completion) : State :=
  if !(s.ring c.f c.r).running.contains c.ord then s else
  let s := s.postEntry c { e with tag := c.tag, opcode := BitVec.ofNat 16 c.op }
  if e.status = .quota then s.quotaFail c.f else s

/-- Complete a command with a status and its two results. -/
def State.finish (s : State) (c : Cmd) (st : Code) (r0 r1 : Nat := 0) : State :=
  s.complete c { status := st, result0 := BitVec.ofNat 32 r0, result1 := BitVec.ofNat 32 r1 }

end Sys2Proof.Machine
end

