-- ==== Sys2Proof/Machine/Sched.lean ====
section
/-! DEFINITION. The slot schedule in force, time left in slots, the wheel and home dies (R16, R72–R82). -/
namespace Sys2Proof.Machine

/-- A schedule entry (Tables 3.15, 3.16). -/
structure SchedEntry where
  v      : Bool
  stall  : StallId
  length : Nat
  start  : Nat
  rows   : Nat
  die    : Die
deriving DecidableEq, Repr

/-- The bank in force, and the Churn period in µs (Table 3.13). -/
def State.bank (s : State) : Nat := (s.reg .chn 0x004).toNat / 256 % 2
def State.periodUs (s : State) : Nat := ((s.reg .chn 0x004).toNat % 32 + 1) * 250

def State.schedEntry (s : State) (i : Nat) : SchedEntry :=
  let o := 0x2000 + s.bank * 0x1000 + i * 8
  let a := s.reg .chn o
  let b := s.reg .chn (o + 4)
  { v := a.getLsbD 31, stall := Fin.ofNat 16 (a.toNat / 2 ^ 26), length := a.toNat / 2 ^ 13 % 8192, start := a.toNat % 8192,
    rows := b.toNat / 4 % 256, die := Fin.ofNat 4 b.toNat }

def SchedEntry.stop (e : SchedEntry) : Nat := e.start + e.length
/-- The rows of an entry, by number. -/
def SchedEntry.rowList (e : SchedEntry) : List RowId :=
  (List.range 8).filterMap fun y => if e.rows.testBit y then some (Fin.ofNat 32 (e.die.val * 8 + y)) else none
def SchedEntry.overlaps (a b : SchedEntry) : Bool :=
  decide (a.die = b.die) && decide (a.rows &&& b.rows ≠ 0) && decide (a.start < b.stop) && decide (b.start < a.stop)

/-- Why an entry is skipped (R73). -/
inductive SkipReason where
  | invalid | overlap | notFresh
deriving DecidableEq, Repr

/-- Go through the bank in ascending order: the skips with their reasons; `kept` are the entries not skipped so far. -/
def State.skipScan (s : State) : List Nat → List SchedEntry → List (Nat × SkipReason)
  | [], _ => []
  | i :: is, kept =>
    let e := s.schedEntry i
    if !e.v then s.skipScan is kept
    else if e.length = 0 ∨ e.rows = 0 ∨ s.periodUs < e.stop then (i, .invalid) :: s.skipScan is kept
    else if kept.any e.overlaps then (i, .overlap) :: s.skipScan is kept
    else if s.stallState e.stall ≠ .fresh then (i, .notFresh) :: s.skipScan is kept
    else s.skipScan is (kept ++ [e])

/-- An overlapped entry is one that shares time with an earlier entry not skipped: an entry skipped for another reason keeps nothing out. -/
def State.skips (s : State) : List (Nat × SkipReason) := s.skipScan (List.range 512) []

/-- The valid entries of R108 naming a Stall: V = 1 and not skipped with REASON 0x01 or 0x02. -/
def State.stallEntries (s : State) (n : StallId) : List SchedEntry :=
  let sk := (s.skips.filter fun x => x.2 ≠ .notFresh).map (·.1)
  ((List.range 512).filter fun i => !sk.contains i).map s.schedEntry |>.filter fun e => e.v && decide (e.stall = n)

/-- Is an entry in force in this Churn? -/
def State.entryLive (s : State) (i : Nat) : Bool := (s.schedEntry i).v && !s.churn.skipped.contains i

/-- TRF_MODULE: the device's own module identifier. -/
def State.moduleId (s : State) : Nat := (s.reg .trf 0x008).toNat % 256
/-- The Stall that a binding of Stall `n` names on a module: the valid entry with the lowest number (R378). -/
def State.boundStall (s : State) (n : StallId) (m : Nat) : Option StallId :=
  (List.range 16).findSome? fun i =>
    let b := s.reg .trf (0x800 + n.val * 0x40 + 4 * i)
    if b.getLsbD 31 && decide (b.toNat % 256 = m) then some (Fin.ofNat 16 (b.toNat / 2 ^ 8)) else none

/-- The Stall's own work goes on while it is FRESH or drains. -/
def State.works (s : State) (n : StallId) : Bool :=
  s.fresh? n || (match (s.stalls[n]).step with | .draining _ => true | _ => false)

/-- Does a range lie in allocations of the function's own (Table 14.1)? The Commons is PF0's. -/
def State.owned (s : State) (f : Fn) (x n : Nat) : Bool := s.covered f x n && decide (x + n ≤ commonsBase)

def tileRow (t : TileId) : RowId := Fin.ofNat 32 (t.val / 8)
def rowDie (r : RowId) : Die := Fin.ofNat 4 (r.val / 8)
def tileDie (t : TileId) : Die := Fin.ofNat 4 (t.val / 64)
def rowTiles (r : RowId) : List TileId := (List.range 8).map fun x => Fin.ofNat 256 (r.val * 8 + x)
def dieTiles (d : Die) : List TileId := (List.range 64).map fun x => Fin.ofNat 256 (d.val * 64 + x)
def allTiles : List TileId := List.finRange 256
def allStalls : List StallId := List.finRange 16
def allDies : List Die := List.finRange 4
def allRows : List RowId := List.finRange 32

/-- 1,100 times the CCLK cycles that a kernel has run (R109, R423). -/
def State.ranNow (s : State) (r : Running) : Nat := r.ran + (s.churn.cycles (s.now - s.churn.glideAt) - s.churn.cycles (r.since - s.churn.glideAt))
/-- The BCLK by which a kernel has run its BOUND at the clock as it goes (R109, R431). -/
def State.boundAt (s : State) (r : Running) : Nat := s.churn.reach 26 r.since (r.bound * usBclk - r.ran)
/-- CCLK in force (R431). -/
def State.clk (s : State) : Nat := s.churn.clkAt s.now
/-- CCLK begins to glide to a new frequency: what the running kernels have run is counted up to now. -/
def State.setClock (s : State) (f : Nat) : State :=
  let s := { s with tiles := s.tiles.map fun (t : Tile) => { t with run := t.run.map fun (r : Running) => { r with ran := s.ranNow r, since := s.now } } }
  s.modChurn fun c => { c with mhz := f, glideFrom := c.clkAt s.now, glideAt := s.now }

/-- When a slot ends, in BCLK. -/
def State.slotEnd (s : State) (e : SlotId) : Nat := s.churn.boundaryAt + (s.schedEntry e.val).stop * usBclk
/-- CCLK cycles left until a BCLK time (R130, R431). -/
def State.cclkLeft (s : State) (t : Nat) : Nat := (t - s.now) * s.churn.clkLow s.now / usBclk
/-- The open slots of a Stall on a die. -/
def State.openSlot (s : State) (n : StallId) (d : Die) : Option SlotId :=
  allRows.findSome? fun r =>
    if rowDie r = d then
      match (s.churn.rows[r]).slot with
      | some e => if (s.schedEntry e.val).stall = n then some e else none
      | none => none
    else none
/-- The open slots of a Stall on a die, each once. -/
def State.openSlots (s : State) (n : StallId) (d : Die) : List SlotId :=
  ((allRows.filter fun r => rowDie r = d).filterMap fun r => (s.churn.rows[r]).slot).eraseDups.filter fun e => decide ((s.schedEntry e.val).stall = n)
def State.openAnywhere (s : State) (n : StallId) : Bool := allDies.any fun d => (s.openSlot n d).isSome
/-- The slot a tile is in. -/
def State.tileSlot (s : State) (t : TileId) : Option SlotId := (s.churn.rows[tileRow t]).slot

def State.commonsOwner (s : State) (k : Nat) : TurnOwner := ownerOf ((s.reg .chn (0x140 + k % 32 / 4 * 4)).toNat / 2 ^ (8 * (k % 4)) % 256)

/-- The die pairs on which the bank in force grants the Stall tiles; all four when there are none (R16). -/
def State.homeDies (s : State) (n : StallId) : List Die :=
  let l := allDies.filter fun d => (s.stallEntries n).any fun e => e.die = d
  if l.isEmpty then allDies else l
/-- The next home, in rotation (R16). DESIGN CHOICE: each Stall has a rotation of its own, from die pair 0, and takes the next die pair granted at or above where it stands
(log 93). -/
def State.nextHome (s : State) (n : StallId) : Die × State :=
  let l := s.homeDies n
  let k := (s.serving[n]).homeTurn
  let d := match l.find? (fun d => k ≤ d.val) with
    | some d => d
    | none => l.headD 0
  (d, s.modSrv n fun v => { v with homeTurn := (d.val + 1) % 4 })

end Sys2Proof.Machine
end

