-- ==== Sys2Proof/Machine/Serve.lean ====
section
/-! DEFINITION. The serving operations that every stage shares: B-die queues, requests, KV pages, and how a request ends (chapters 01, 12). -/
namespace Sys2Proof.Machine

/-! ### B-die queues (R17–R22), numbered in the order of Table 1.3 -/

def queueCap (q : Nat) : Nat := [8192, 4096, 4096, 16384, 16384, 4096, 4096, 16384, 16384].getD q 0
/-- The share field of a queue (R66, R67). -/
def State.shareField (s : State) (n : StallId) (q : Nat) : Nat :=
  let f := fun (o k : Nat) => (s.reg (.stl n) o).toNat / 2 ^ k % 256
  match q with
  | 0 => f 0x40 0 | 1 => f 0x40 8 | 2 => f 0x40 16 | 3 => f 0x40 24 | 4 => f 0x44 0 | 5 => f 0x44 8 | 6 => f 0x44 16 | 7 => f 0x44 24 | _ => f 0x48 0
def State.queueShare (s : State) (n : StallId) (q : Nat) : Nat := queueCap q / 64 * min 64 (s.shareField n q)
def State.walkShare (s : State) (n : StallId) : Nat := 8 * min 64 ((s.reg (.stl n) 0x48).toNat / 256 % 256)

def queueKey (d : Die) (q : Nat) : Nat := d.val * 16 + q
def Serving.queue (v : Serving) (d : Die) (q : Nat) : List QEntry := mapGet [] v.queues (queueKey d q)
def Serving.setQueue (v : Serving) (d : Die) (q : Nat) (l : List QEntry) : Serving := { v with queues := mapSet [] v.queues (queueKey d q) l }
/-- Entries counted in a share: those queued, and those popped whose batch has not ended (R305). -/
def Serving.queueUsed (v : Serving) (d : Die) (q : Nat) : Nat :=
  (v.queue d q).length + (v.batches.map fun b => if b.die = d then b.popped.countP (fun x => x.1 = q) else 0).sum
def State.queueFull (s : State) (n : StallId) (d : Die) (q : Nat) : Bool := decide (s.queueShare n q ≤ (s.serving[n]).queueUsed d q)
def State.enqueue (s : State) (n : StallId) (d : Die) (q : Nat) (e : QEntry) : State :=
  s.modSrv n fun v => v.setQueue d q (v.queue d q ++ [e])
/-- REQ_TAG of an entry: at 0x18 in a code queue entry (Table 8.4), first in every other. -/
def queueTag (q : Nat) (e : Entry) : Word := BitVec.ofNat 32 (Entry.field e (if q = 1 then 0x18 else 0) 4)
/-- The stage that takes a queue's entries (Tables 1.2, 1.3). -/
def queueStage (q : Nat) : BitVec 8 := BitVec.ofNat 8 ([2, 3, 4, 5, 6, 7, 8, 9, 10].getD q 0)
/-- An entry that an engine of the device makes. -/
def State.mkEntry (s : State) (e : Entry) : QEntry := { e, tag := e.setWidth 32, since := s.now, note := 0, poison := false }

/-! ### Requests -/

def Serving.req? (v : Serving) (tag : Word) : Option Request := v.requests.find? fun q => q.tag = tag
/-- A request in flight whose entries count: admitted and not cancelled. -/
def Serving.live (v : Serving) (tag : Word) : Bool := v.requests.any fun q => q.tag = tag && !q.cancelled
def Serving.modReq (v : Serving) (tag : Word) (g : Request → Request) : Serving :=
  { v with requests := v.requests.map fun q => if q.tag = tag then g q else q }
def State.modReq (s : State) (n : StallId) (tag : Word) (g : Request → Request) : State := s.modSrv n fun v => v.modReq tag g
def Request.note (q : Request) (b : Word) : Request := { q with notes := q.notes ||| b }

def Serving.program? (v : Serving) (h : Nat) : Option Program := v.keep.programs.find? fun p => p.handle = h
def Serving.model? (v : Serving) (h : Nat) : Option Model := v.keep.models.find? fun m => m.handle = h
/-- A field of the program that a request was admitted to (Table 12.7). -/
def Serving.progField (v : Serving) (q : Request) (o k : Nat) : Nat :=
  match v.program? q.program with
  | some p => bytesField p.bytes o k
  | none => 0
def Serving.reqGrammar (v : Serving) (q : Request) : Option Nat :=
  if q.dispatch || (v.program? q.program).isNone then none else let g := v.progField q 1 1; if g = 0xFF then none else some g
def Serving.reqModel (v : Serving) (q : Request) : Option Nat :=
  if q.dispatch || (v.program? q.program).isNone then none else let m := v.progField q 6 2; if m = 0xFFFF then none else some m

/-! ### Output text (R283) -/

/-- Write one whole character to the output buffer; once the buffer is full, writing stops with TEXT_TRUNC. -/
def State.putChar (s : State) (n : StallId) (tag : Word) (c : List Byte) : State :=
  match (s.serving[n]).req? tag with
  | some q =>
    if q.notes.getLsbD 5 then s
    else if q.outDone + c.length ≤ q.outBytes then
      (s.writeMem (vfOf n) (q.outAddr + q.outDone) c).modReq n tag fun q => { q with outDone := q.outDone + c.length }
    else s.modReq n tag fun q => q.note 0x20
  | none => s

/-- U+FFFD. -/
def replChar : List Byte := [0xEF, 0xBF, 0xBD]
/-- INVALID_TEXT recorded by a job of the Stall (R270, R283). -/
def State.noteInvalid (s : State) (n : StallId) (tag : Word) : State :=
  ((s.modReq n tag fun q => q.note 0x8).raise .txt 0x4).count (some n) 0x063 1
/-- The sequence ends: each held byte is written as U+FFFD (R283). -/
def State.flushText (s : State) (n : StallId) (tag : Word) : State :=
  match (s.serving[n]).req? tag with
  | some q =>
    if q.heldText.isEmpty then s
    else (q.heldText.foldl (fun s _ => s.putChar n tag replChar) (s.noteInvalid n tag)).modReq n tag fun q => { q with heldText := [] }
  | none => s

/-! ### KV pages and prefix handles (R312–R315) -/

def Serving.kvTotal (v : Serving) (m : Nat) : Nat := match v.model? m with | some r => bytesField r.bytes 0x18 4 | none => 0
/-- Pages of a model's pool in use. -/
def Serving.kvUsed (v : Serving) (m : Nat) : List Nat :=
  (v.requests.filter fun q => v.reqModel q = some m).flatMap (·.pages) ++ (v.handles.filter fun h => h.key.model = m).flatMap (·.pages) ++
    (v.lingering.filter fun x => x.2.1 = m).flatMap (·.2.2)
def Serving.kvReserved (v : Serving) (m : Nat) : Nat := ((v.requests.filter fun q => v.reqModel q = some m).map (·.reserve)).sum
def Serving.kvFree (v : Serving) (m : Nat) : Nat := v.kvTotal m - (v.kvUsed m).length - v.kvReserved m

/-- The namespace of a request's prefix, and the key of its handle (R314). -/
def Serving.pfxNs (v : Serving) (q : Request) : Nat := if v.progField q 0x0A 1 = 1 then q.client + 1 else 0
def Serving.pfxKey (v : Serving) (q : Request) (m : Nat) : PfxKey := { template := v.progField q 2 1, model := m, adapter := q.adapter, ns := v.pfxNs q }
/-- Prompt entries with a prefix of the key that wait, by die; of two that entered in one BCLK that of the lower-numbered die is the older (log 88). -/
def Serving.keyWaits (v : Serving) (k : PfxKey) : List QEntry :=
  ((List.finRange 4).flatMap fun d => v.queue d 6).filter fun e => decide (Entry.field e.e 0x14 4 ≠ 0) &&
    (match v.req? e.tag with | some q => !q.cancelled && !q.dispatch && (match v.reqModel q with | some m => decide (v.pfxKey q m = k) | none => false) | none => false)
def oldestEntry (l : List QEntry) : Option QEntry := match l with | [] => none | e :: es => some (es.foldl (fun (a b : QEntry) => if b.since < a.since then b else a) e)

/-- Unmap a sequence's handle: a builder's handle that is not ready goes with it, and the oldest prompt that waits for it is to build it; a dropped handle goes with its
last sequence (R315). -/
def Serving.unmap (v : Serving) (q : Request) : Serving :=
  match q.handle with
  | none => v
  | some h =>
    { v with handles := v.handles.filterMap fun x =>
               if x.id ≠ h then some x
               else if q.builder && !x.ready then none
               else
                 let x := { x with mapped := x.mapped.filter (· ≠ q.tag) }
                 if x.dropped && x.mapped.isEmpty then none else some x
             heirs := v.heirs ++ (v.handles.filter fun x => decide (x.id = h) && q.builder && !x.ready && !(v.keyWaits x.key).isEmpty).map (·.key) }

/-! ### How a request ends -/

/-- Remove a request's entries from every queue, and from what batches have popped (R22, R319). -/
def Serving.dropEntries (v : Serving) (tag : Word) : Serving :=
  { v with queues := v.queues.filterMap (fun (k, l) => let l' := l.filter fun e => e.tag ≠ tag; if l'.isEmpty then none else some (k, l')),
           batches := v.batches.map fun b => { b with popped := b.popped.filter fun x => x.2.tag ≠ tag } }
/-- A request has ended: batches that served it serve it no longer. -/
def Serving.endTag (v : Serving) (tag : Word) : Serving := { v with batches := v.batches.map fun b => if b.dead.contains tag then b else { b with dead := b.dead ++ [tag] } }

def GJob.tag (j : GJob) : Word := j.entry.setWidth 32
def Walk.tag (w : Walk) : Word := queueTag 1 w.entry
def TextWork.tag? : TextWork → Option Word
  | .token t => some t
  | .pack e => some e.tag
  | .out e => some e.tag
  | .tokenise _ => none

/-- Stop a request's walk, gather and text jobs (R202, R259, R292). A scatter-add whose read has begun completes. -/
def Serving.dropJobs (v : Serving) (tag : Word) : Serving :=
  let gone := (v.jobs.filter fun j => j.tag = tag).map (·.id)
  { v with
    walks := v.walks.filter fun w => w.insert.isSome || w.tag ≠ tag
    disps := v.disps.filter fun d => queueTag 1 d.entry ≠ tag
    jobs := v.jobs.filter fun j => j.tag ≠ tag
    reads := v.reads.filterMap (fun r =>
      let q := r.reqs.filter fun x => !gone.contains x.1
      if r.scatter && r.started then some { r with reqs := q }
      else if q.isEmpty then none else some { r with reqs := q, adds := r.adds.filter fun x => !gone.contains x.1 })
    text := v.text.filter fun j => j.work.tag? ≠ some tag
    masks := v.masks.map fun m => { m with pins := m.pins.filter (· ≠ tag) } }

def TextWork.vocab? : TextWork → Option Nat
  | .tokenise c => some (Desc.field c.d 0x10 1)
  | _ => none
/-- Does an admitted request, or a TXT_TOKENISE in progress, use what a retirement of text objects, programs or models names (R291, R302)? -/
def Serving.retireBusy (v : Serving) (c : Cmd) : Bool :=
  (c.op = 0x34 && Desc.field c.d 0x10 4 = 0 && v.text.any fun j => j.work.vocab? = some (Desc.field c.d 0x14 4)) || v.requests.any fun q => !q.dispatch &&
    (match c.op with
     | 0x34 =>
       let h := Desc.field c.d 0x14 4
       (match Desc.field c.d 0x10 4 with
        | 0 => v.progField q 0 1 = h
        | 1 => v.reqGrammar q = some h
        | _ => v.progField q 2 1 = h)
     | 0x11 => q.program = Desc.field c.d 0x10 4
     | _ => v.reqModel q = some (Desc.field c.d 0x10 4))

/-- Free what a retirement names; the programs that bind it stay closed (R291). -/
def Serving.retireNow (v : Serving) (c : Cmd) : Serving :=
  let k := v.keep
  let binds := fun (p : Program) => let b := bytesField p.bytes
    match c.op with
    | 0x34 =>
      let h := Desc.field c.d 0x14 4
      (match Desc.field c.d 0x10 4 with | 0 => decide (b 0 1 = h) | 1 => decide (b 1 1 = h) | _ => decide (b 2 1 = h))
    | 0x13 => decide (b 6 2 = Desc.field c.d 0x10 4)
    | _ => false
  let k := { k with programs := k.programs.map fun (p : Program) => { p with closed := p.closed || binds p } }
  let keep := match c.op with
    | 0x34 =>
      let h := Desc.field c.d 0x14 4
      (match Desc.field c.d 0x10 4 with
       | 0 => { k with vocabs := k.vocabs.filter fun x => x.handle ≠ h }
       | 1 => { k with grammars := k.grammars.filter fun x => x.handle ≠ h }
       | _ => { k with templates := k.templates.filter fun x => x.handle ≠ h })
    | 0x11 => { k with programs := k.programs.filter fun x => x.handle ≠ Desc.field c.d 0x10 4 }
    | _ => { k with models := k.models.filter fun x => x.handle ≠ Desc.field c.d 0x10 4 }
  { v with keep, retires := v.retires.filter (· ≠ c), masks := if c.op = 0x34 ∧ Desc.field c.d 0x10 4 = 1 then v.masks.filter fun m => m.grammar ≠ Desc.field c.d 0x14 4 else v.masks }

/-- Complete the retirements that no admitted request holds back any longer. -/
def State.pumpRetires (s : State) (n : StallId) : State :=
  (s.serving[n]).retires.foldl (fun s c =>
    if (s.serving[n]).retireBusy c then s else (s.modSrv n fun v => v.retireNow c).finish c .ok) s

/-- A CANCEL completes after its targets' completions (R320). -/
def State.pumpCancels (s : State) (n : StallId) : State :=
  (s.serving[n]).cancels.foldl (fun s c =>
    if c.targets.any fun t => ((s.serving[n]).req? t).isSome then s
    else (s.modSrv n fun v => { v with cancels := v.cancels.filter (· ≠ c) }).finish c.cmd .ok c.count) s

/-- The request leaves the Stall: pages, reservation, handle, adapter pin and SEQ_ID are free (R320), and its entries and jobs are gone. -/
def State.releaseReq (s : State) (n : StallId) (q : Request) : State :=
  s.modSrv n fun v => let v := (((v.dropEntries q.tag).unmap q).endTag q.tag).dropJobs q.tag; { v with requests := v.requests.filter fun x => x.tag ≠ q.tag }

/-- Bits [2:0] and [31:24] of NOTES_K (Table 12.4); a poisoned header gives none (R441). -/
def State.notesK (s : State) (n : StallId) (q : Request) : Word :=
  if q.dispatch || s.poisoned (vfOf n) (q.work + 0x38) 8 then 0 else BitVec.ofNat 32 (s.readNat (vfOf n) (q.work + 0x38) 4) &&& 0xFF000007

/-- The completion of a request (Table 12.5, R301). -/
def State.reqCompletion (s : State) (n : StallId) (q : Request) : Completion :=
  let st := match q.failed with
    | some f => f.status
    | none => if q.wide then .widened else .ok
  let f : Failure := q.failed.getD { status := .ok }
  { status := st, stage := if q.dispatch then 0 else f.stage, notes := q.notes ||| s.notesK n q, result0 := BitVec.ofNat 32 q.step,
    result1 := BitVec.ofNat 32 q.outDone, promptLen := BitVec.ofNat 32 q.promptLen, fault := f.fault, kh := f.kh, pc := f.pc, batch := f.batch,
    firstUs := BitVec.ofNat 32 q.firstUs, totalUs := BitVec.ofNat 32 ((s.now - q.admitAt) / usBclk) }

/-- End a request: the last bytes are written, everything it holds is freed, and its completion is posted (R284, R301, R320). -/
def State.endRequest (s : State) (n : StallId) (tag : Word) : State :=
  let s := s.flushText n tag
  match (s.serving[n]).req? tag with
  | none => s
  | some q =>
    let e := s.reqCompletion n q
    let s := (s.releaseReq n q).complete q.cmd e
    let s := if q.dispatch then s else s.count (some n) 0x011 1
    let s := if e.status = .cancelled then s.count (some n) 0x013 1 else s
    (s.pumpRetires n).pumpCancels n

/-- Record the first failure of a request (R301). -/
def Request.fail (q : Request) (f : Failure) : Request := { q with failed := some (q.failed.getD f) }
/-- A failure ends a request. -/
def State.failReq (s : State) (n : StallId) (tag : Word) (f : Failure) : State := (s.modReq n tag fun q => q.fail f).endRequest n tag

/-- A sequence that the grammar ends: its private pages are freed after the slot on its home die, at once when none is open (R288). -/
def State.failLate (s : State) (n : StallId) (tag : Word) (f : Failure) : State :=
  match (s.serving[n]).req? tag with
  | some q =>
    let open_ := (s.openSlots n q.home).map (·.val)
    let linger := !open_.isEmpty && !q.pages.isEmpty
    let m := (s.serving[n]).reqModel q
    let s := s.failReq n tag f
    if linger then s.modSrv n fun v => { v with lingering := v.lingering ++ [(open_, m.getD 0, q.pages)] } else s
  | none => s

/-! ### Cancellation (R319, R320) -/

/-- The stage in progress of a request (Table 1.2). -/
def Request.stageNow (q : Request) : BitVec 8 := q.stage

/-- Step table row `r` of generation batch slot `j`. -/
def Serving.rowAddr (v : Serving) (j r : Nat) : Nat := v.keep.cfg.row + j * 0x40000 + r * 64

/-- The BCLK in which a CANCEL is taken. -/
def State.cancelMark (s : State) (n : StallId) (tag : Word) : State :=
  match (s.serving[n]).req? tag with
  | none => s
  | some q =>
    let f := vfOf n
    let open_ := (s.openSlots n q.home).map (·.val)
    let s := if q.dispatch then s else s.writeMem f (q.work + 7) [1]
    let rows := (s.serving[n]).batches.flatMap fun b =>
      match b.kind with
      | .gen _ j => (List.zip (List.range b.rows.length) b.rows).filterMap fun (i, r) => if r.tag = tag then some ((s.serving[n]).rowAddr j i + 7) else none
      | _ => []
    let s := rows.foldl (fun s a => s.writeMem f a [1]) s
    s.modSrv n fun v => ((v.dropEntries tag).dropJobs tag).modReq tag fun q => { (q.fail { status := .cancelled, stage := q.stageNow }) with cancelled := true, waitSlots := open_ }

/-- The requests of a batch (R305, R311, R321): those that it was placed for, and those of which its kernels have popped an entry. -/
def Batch.tags (b : Batch) : List Word :=
  let own := match b.kind with
    | .dispatch t => [t]
    | .trigger _ => []
    | .gen _ _ => b.rows.map (·.tag)
  (own ++ b.served).eraseDups.filter fun t => !b.dead.contains t
/-- Have all requests of a batch been cancelled or ended (R137)? A trigger batch that has popped nothing serves no request: it is not cancelled. -/
def Serving.allCancelled (v : Serving) (b : Batch) : Bool := (!b.tags.isEmpty || !b.dead.isEmpty) && b.tags.all fun t => !v.live t

def dropItems (num : Nat) (m : AMap (List Item)) : AMap (List Item) :=
  m.filterMap fun (k, l) => let l' := l.filter fun i => i.batch ≠ num; if l'.isEmpty then none else some (k, l')
def Serving.segment (v : Serving) (t : TileId) : List Item := mapGet [] v.segs t.val
def Serving.setSegment (v : Serving) (t : TileId) (l : List Item) : Serving := { v with segs := mapSet [] v.segs t.val l }
/-- Stage the oldest item of the tile's own segment while a kernel runs (R132). -/
def State.stageItem (s : State) (n : StallId) (t : TileId) : State :=
  if ((s.tiles[t]).run).isSome && ((s.tiles[t]).staged).isNone then
    match (s.serving[n]).segment t with
    | i :: rest => (s.modSrv n fun v => v.setSegment t rest).modTile t fun tl => { tl with staged := some i }
    | [] => s
  else s
/-- Remove every queued item of a batch: segments, inboxes, staged items (R134 step 1). A tile whose staged item goes stages its next. -/
def State.dropQueued (s : State) (n : StallId) (num : Nat) : State :=
  let s := s.modSrv n fun v => { v with segs := dropItems num v.segs, inbox := dropItems num v.inbox }
  let mine := allTiles.filter fun t => (s.tiles[t]).staged.any (fun i => i.batch = num) && decide ((s.tiles[t]).owner = some n)
  mine.foldl (fun s t => (s.modTile t fun tl => { tl with staged := none }).stageItem n t) s

def State.dropCancelled (s : State) (n : StallId) : State :=
  ((s.serving[n]).batches.filter fun b => (s.serving[n]).allCancelled b).foldl (fun s b => s.dropQueued n b.num) s

end Sys2Proof.Machine
end

