-- ==== Sys2Proof/Machine/Sha.lean ====
section
/-! DEFINITION. SHA-384 of a list of bytes, the digest that the spec names for containers, segments and chains (R112, R490). FIPS 180-4, whose constants are
the fractional parts of square and cube roots of primes (log 22). -/
namespace Sys2Proof.Machine

def primes80 : List Nat :=
  [2, 3, 5, 7, 11, 13, 17, 19, 23, 29, 31, 37, 41, 43, 47, 53, 59, 61, 67, 71, 73, 79, 83, 89, 97, 101, 103, 107, 109, 113, 127, 131, 137, 139, 149, 151, 157,
   163, 167, 173] ++
  [179, 181, 191, 193, 197, 199, 211, 223, 227, 229, 233, 239, 241, 251, 257, 263, 269, 271, 277, 281, 283, 293, 307, 311, 313, 317, 331, 337, 347, 349, 353,
   359, 367, 373, 379, 383, 389, 397, 401, 409]

/-- The greatest x below 2^`k` with x^`e` ≤ n, bit by bit. -/
def intRoot (e n : Nat) : Nat → Nat → Nat
  | 0, x => x
  | k + 1, x => if (x + 2 ^ k) ^ e ≤ n then intRoot e n k (x + 2 ^ k) else intRoot e n k x

/-- 64 bits of the fractional part of the `e`-th root of `p`. -/
def rootFrac (e p : Nat) : BitVec 64 := BitVec.ofNat 64 (intRoot e (p * 2 ^ (64 * e)) 70 0)

def shaK : List (BitVec 64) := primes80.map (rootFrac 3)
def shaInit : List (BitVec 64) := ((primes80.drop 8).take 8).map (rootFrac 2)

/-- A 64-bit word of big-endian bytes. -/
def beWord (b : List Byte) : BitVec 64 := BitVec.ofNat 64 (ofBytesLE b.reverse)
def shaWords (b : List Byte) : List (BitVec 64) := (List.range 16).map fun i => beWord ((b.drop (8 * i)).take 8)

/-- Extend 16 words to 80; newest first. -/
def shaExtend : Nat → List (BitVec 64) → List (BitVec 64)
  | 0, w => w
  | k + 1, w =>
    let x := w.getD 1 0
    let y := w.getD 14 0
    let s1 := x.rotateRight 19 ^^^ x.rotateRight 61 ^^^ (x >>> 6)
    let s0 := y.rotateRight 1 ^^^ y.rotateRight 8 ^^^ (y >>> 7)
    shaExtend k ((s1 + w.getD 6 0 + s0 + w.getD 15 0) :: w)

def shaRound (h : List (BitVec 64)) (kw : BitVec 64) : List (BitVec 64) :=
  match h with
  | [a, b, c, d, e, f, g, h] =>
    let t1 := h + (e.rotateRight 14 ^^^ e.rotateRight 18 ^^^ e.rotateRight 41) + ((e &&& f) ^^^ (~~~e &&& g)) + kw
    let t2 := (a.rotateRight 28 ^^^ a.rotateRight 34 ^^^ a.rotateRight 39) + ((a &&& b) ^^^ (a &&& c) ^^^ (b &&& c))
    [t1 + t2, a, b, c, d + t1, e, f, g]
  | h => h

def shaBlock (h : List (BitVec 64)) (b : List Byte) : List (BitVec 64) :=
  let w := (shaExtend 64 (shaWords b).reverse).reverse
  List.zipWith (· + ·) h ((List.zipWith (· + ·) shaK w).foldl shaRound h)

def shaBlocks : Nat → List (BitVec 64) → List Byte → List (BitVec 64)
  | 0, h, _ => h
  | k + 1, h, b => shaBlocks k (shaBlock h (b.take 128)) (b.drop 128)

/-- SHA-384, the 48 bytes in the order of the standard. -/
def sha384 (m : List Byte) : List Byte :=
  let pad := (239 - m.length % 128) % 128
  let b := m ++ [(0x80 : Byte)] ++ List.replicate pad 0 ++ (toBytesLE 16 (8 * m.length)).reverse
  ((shaBlocks (b.length / 128) shaInit b).take 6).flatMap fun w => (toBytesLE 8 w.toNat).reverse

end Sys2Proof.Machine
end

