-- ==== Sys2Proof/Machine/Report.lean ====
section
/-! DEFINITION. The lifetime log (R481, R488–R490) and the error records (R448–R451). -/
namespace Sys2Proof.Machine

/-- BCLK cycles in a second. -/
def secBclk : Nat := 1100000000
/-- MGT_RTC (R481). -/
def State.rtcNow (s : State) : BitVec 64 := s.mgt.rtc + BitVec.ofNat 64 ((s.now - s.mgt.rtcAt) * 32768 / secBclk)
/-- Power-on seconds since manufacture. -/
def State.posNow (s : State) : Nat := s.mgt.pos + (s.now - s.mgt.posAt) / secBclk
def State.modMgt (s : State) (g : Mgt → Mgt) : State := { s with mgt := g s.mgt }
def State.modRas (s : State) (g : Ras → Ras) : State := { s with ras := g s.ras }
def State.modSec (s : State) (g : Sec → Sec) : State := { s with sec := g s.sec }
def State.modPower (s : State) (g : Power → Power) : State := { s with power := g s.power }
def State.modFabric (s : State) (g : Fabric → Fabric) : State := { s with fabric := g s.fabric }

/-- Bytes filled with zeros, or cut, to a length. -/
def padTo (n : Nat) (b : List Byte) : List Byte := b.take n ++ List.replicate (n - b.length) 0

/-- The 64 bytes of a log record (Table 20.5). -/
def LogRec.bytes (r : LogRec) : List Byte :=
  toBytesLE 2 r.ty ++ toBytesLE 2 (if r.unset then 1 else 0) ++ toBytesLE 4 r.pos.toNat ++ toBytesLE 8 r.rtc.toNat ++ toBytesLE 8 r.seq.toNat ++ padTo 40 r.data
def LogRec.fill : LogRec := { ty := 0, unset := false, pos := 0, rtc := 0, seq := 0, data := [] }
/-- The records and the first 0x70 bytes of the trailer (Table 20.6): what SIG covers. -/
def Segment.signed (g : Segment) : List Byte :=
  g.recs.flatMap LogRec.bytes ++ toBytesLE 8 g.number ++ toBytesLE 8 g.first.toNat ++ padTo 48 g.prev ++ padTo 48 g.alias_
def Segment.bytes (g : Segment) : List Byte := g.signed ++ padTo 96 g.sig ++ List.replicate 48 0

/-- The components of the running slot (R458). -/
def Sec.running (x : Sec) : List Component := if x.slot then x.bundleB else x.bundleA
def Sec.comp? (x : Sec) (kind : Nat) : Option Component := x.running.find? fun c => c.kind = kind
def Sec.digest (x : Sec) (kind : Nat) : List Byte := match x.comp? kind with | some c => c.digest | none => List.replicate 48 0
def Sec.svn (x : Sec) (kind : Nat) : Nat := match x.comp? kind with | some c => c.svn | none => 0
/-- The certificate of the key that changes with the firmware (Table 19.1): opaque bytes that depend on the digests of measurements 2–5. -/
def Sec.aliasCert (x : Sec) : List Byte := Config.sign 1 (x.digest 1 ++ x.digest 2 ++ x.digest 3 ++ x.digest 4)
/-- A signature under that key. -/
def Sec.aliasSign (x : Sec) (m : List Byte) : List Byte := Config.sign 2 (x.aliasCert ++ m)

/-- Seal a segment: filled, chained and signed (R490). The oldest of 4,096 gives way (R488). -/
def State.seal (s : State) : State :=
  if s.mgt.unsealed.isEmpty then s
  else
    let rs := s.mgt.unsealed.take 1020
    let digest := sha384 s.sec.aliasCert
    let g : Segment := { number := s.mgt.nextSeg, first := (rs.headD LogRec.fill).seq, recs := rs ++ List.replicate (1020 - rs.length) LogRec.fill,
                         prev := match s.mgt.segments.getLast? with | some p => sha384 p.bytes | none => List.replicate 48 0, alias_ := digest, sig := [] }
    let g := { g with sig := s.sec.aliasSign g.signed }
    let l := s.mgt.segments ++ [g]
    s.modMgt fun m => { m with segments := l.drop (l.length - 4096), unsealed := m.unsealed.drop 1020, nextSeg := m.nextSeg + 1, sealedAt := s.posNow,
                               aliases := if m.aliases.contains s.sec.aliasCert then m.aliases else (m.aliases ++ [s.sec.aliasCert]).drop (m.aliases.length - 255) }

/-- Append a record (R490); a full segment is sealed. -/
def State.log (s : State) (ty : Nat) (data : List Byte) : State :=
  let r : LogRec := { ty, unset := s.mgt.rtcUnset, pos := BitVec.ofNat 32 s.posNow, rtc := s.rtcNow, seq := s.mgt.logSeq, data }
  let s := s.modMgt fun m => { m with unsealed := m.unsealed ++ [r], logSeq := m.logSeq + 1 }
  if 1020 ≤ s.mgt.unsealed.length then s.seal else s

/-- The 32 bytes of an error record (Table 18.3). -/
def ErrRec.word0 (r : ErrRec) : Nat :=
  r.source.toNat + r.severity * 2 ^ 8 + (match r.stall with | some n => n.val * 2 ^ 12 + 2 ^ 16 | none => 0) + r.action * 2 ^ 24
def ErrRec.bytes (r : ErrRec) : List Byte :=
  toBytesLE 4 r.word0 ++ toBytesLE 4 r.loc ++ toBytesLE 8 (r.addr % 2 ^ 48) ++ toBytesLE 8 r.churn.toNat ++ toBytesLE 4 r.count.toNat ++ toBytesLE 4 r.synd.toNat

def ErrRec.like (a b : ErrRec) : Bool := a.source = b.source && decide (a.loc = b.loc) && decide (a.severity = b.severity)
def satSucc (w : Word) : Word := if w = 0xFFFFFFFF then w else w + 1

/-- The ERROR record of the log, coalesced within the hour by SOURCE, LOC and SEVERITY (Table 20.7). -/
def State.logError (s : State) (r : ErrRec) : State :=
  let hour := s.posNow / 3600
  let same := fun (l : LogRec) => decide (l.ty = 5) && decide (l.pos.toNat / 3600 = hour) &&
    decide (bytesField l.data 0 1 = r.source.toNat) && decide (bytesField l.data 1 1 % 16 = r.severity) && decide (bytesField l.data 4 4 = r.loc)
  if s.mgt.unsealed.any same then
    s.modMgt fun m => { m with unsealed := m.unsealed.map fun l => if same l then { l with data := l.data.take 24 ++ toBytesLE 4 (min 0xFFFFFFFF (bytesField l.data 24 4 + 1)) ++ toBytesLE 4 r.synd.toNat } else l }
  else s.log 5 r.bytes

/-- A record is in the queue: RAS_STATUS and GLB_STATUS.RAS_EVENT (Table 2.5) show it. -/
def State.recPosted (s : State) : State := (s.raise .ras 0x1).raise .glb 0x2
/-- Post a record, or coalesce it into the newest one; a full queue drops it (R449). -/
def State.postRec (s : State) (r : ErrRec) : State :=
  let r := { r with churn := s.churn.num, count := 1 }
  let s := s.count r.stall (if r.severity = 0 then 0x0A0 else 0x0A1) 1
  let s := s.logError r
  match s.ras.recs.getLast? with
  | some l =>
    if l.like r && l.churn = r.churn then
      (s.modRas fun x => { x with recs := x.recs.dropLast ++ [{ l with count := satSucc l.count, synd := r.synd }] }).recPosted
    else if 256 ≤ s.ras.recs.length then (s.modRas fun x => { x with lost := if x.lost = 0xFFFF then x.lost else x.lost + 1 }).count none 0x330 1
    else (s.modRas fun x => { x with recs := x.recs ++ [r] }).recPosted
  | none => (s.modRas fun x => { x with recs := [r] }).recPosted

/-- A record with the fields that an event names; its syndrome is the decoder's (log 3). -/
def State.mkRec (s : State) (source : BitVec 8) (sev : Nat) (stall : Option StallId) (action loc addr : Nat) : ErrRec :=
  { source, severity := sev, stall, action, loc, addr, churn := 0, count := 1, synd := BitVec.ofNat 32 s.free }

/-- A corrected error: counted and recorded, nothing else (R439, R451). -/
def State.corrected (s : State) (source : BitVec 8) (stall : Option StallId) (loc addr : Nat) : State :=
  let r := s.mkRec source 0 stall 0 loc addr
  let s := (s.useFree.modRas fun x => { x with ce := x.ce + 1 }).raise .ras 0x2
  let s := match stall with
    | some n => s.modHost (vfOf n) fun h => { h with errCe := satSucc h.errCe }
    | none => s
  s.postRec r

/-- An uncorrectable error that is contained (R440, R449). -/
def State.uncorrectable (s : State) (source : BitVec 8) (stall : Option StallId) (action loc addr : Nat) : State :=
  let r := s.mkRec source 1 stall action loc addr
  let s := ((s.useFree.modRas fun x => { x with ue := x.ue + 1 }).raise .ras 0x4).postRec r
  -- A flash read that is uncorrectable is an event of FTL_STATUS too (R362).
  if source = 0x07 then s.raise .ftl 0x1 else s

end Sys2Proof.Machine
end

