-- ==== Sys2Proof/Machine/MemOps.lean ====
section
/-! DEFINITION. Channel groups, quotas and use, and making and removing allocations (R325–R328, R333, R347, R349). -/
namespace Sys2Proof.Machine

/-- Owner code of a channel group (Table 14.8); groups 19 and 59 are the device's (R326). -/
def State.groupOwner (s : State) (g : Nat) : Nat :=
  if g = 19 ∨ g = 59 then 0xFE else (s.reg .mem (0x40 + g / 4 * 4)).toNat / 2 ^ (8 * (g % 4)) % 256
def State.stallGroups (s : State) (n : StallId) : List Nat := (List.range 80).filter fun g => s.groupOwner g = n.val
def State.commonsGroups (s : State) : List Nat := (List.range 80).filter fun g => s.groupOwner g = 0x10

/-- The placement group set of an HBM allocation (R327): PLACE 0 is SPREAD, 4–7 a die pair. PF0's own lie in the provider area. -/
def State.placeGroups (s : State) (f : Fn) (commons : Bool) (place : Nat) : List Nat :=
  let base := if commons then s.commonsGroups else match stallOf f with
    | some n => s.stallGroups n
    | none => [19, 59]
  if place = 0 then base else base.filter fun g => groupDie g = place - 4

/-- How many of `units` 4 KiB units fall to the `i`-th of `k` groups. -/
def unitShare (units k i : Nat) : Nat := if k = 0 then 0 else (units + k - 1 - i) / k
/-- 4 KiB units that a placement of `units` takes in group `g`. -/
def shareIn (groups : List Nat) (units g : Nat) : Nat :=
  match groups.findIdx? (· = g) with
  | some i => unitShare units groups.length i
  | none => 0

/-- A Stall's staging pages and its save area, SPREAD while it is not DRY (R327): 4 KiB units. -/
def State.stallFixed (s : State) (n : StallId) : List Nat := [s.stagingPages (vfOf n) * 16, 131072]

/-- 4 KiB units of a channel group in use. -/
def State.groupUsed (s : State) (g : Nat) : Nat :=
  ((List.finRange 17).map fun f => ((s.mem.fns[f]).allocs.map fun a =>
      (if a.tier = .hbm then shareIn a.groups (a.units * 512) g else 0) +
      (match a.move with | some m => if m.dest = .hbm then shareIn m.groups (a.units * 512) g else 0 | none => 0)).sum).sum +
    (allStalls.map fun n => if s.stallState n = .dry then 0 else ((s.stallFixed n).map fun u => shareIn (s.stallGroups n) u g).sum).sum +
    (if g = 19 ∨ g = 59 then unitShare (256 * 16) 2 (g / 59) else 0)
/-- 4 KiB units of a channel group open to allocations: 32 GiB, or the 4 GiB of the provider area, less retired units (R326, R328). -/
def State.groupRoom (s : State) (g : Nat) : Nat := (if g = 19 ∨ g = 59 then 1048576 else 8388608) - mapGet 0 s.mem.gret g
/-- Does a placement of `units` 4 KiB units fit in every group of its set? -/
def State.fits (s : State) (groups : List Nat) (units : Nat) : Bool :=
  !groups.isEmpty && groups.all fun g => decide (s.groupUsed g + shareIn groups units g ≤ s.groupRoom g)

/-! ### Retiring HBM units (R445, R446) -/

/-- The Stall, not DRY, that owns a channel group: the STALL of a record about it (R443). -/
def State.groupStall (s : State) (g : Nat) : Option StallId :=
  match stallOf (Fin.ofNat 17 (s.groupOwner g)) with
  | some n => if s.groupOwner g < 16 ∧ s.stallState n ≠ .dry then some n else none
  | none => none
/-- Key of a unit in the table of corrected errors. -/
def unitKey (g u : Nat) : Nat := g * 2 ^ 24 + u
/-- The copy of a unit to a free one of its group, and what the device reports of it. -/
def State.retireNow (s : State) (g u : Nat) : State :=
  let s := s.modMem fun m => { m with gret := mapSet 0 m.gret g (mapGet 0 m.gret g + 1) }
  let s := s.modRas fun x => { x with retired := x.retired + 1, counts := mapDrop (fun k => decide (k = unitKey g u)) x.counts, pending := x.pending.filter (· ≠ (g, u)) }
  let s := ((s.raise .mem 0x4).raise .ras 0x10).count none 0x331 1
  let s := s.log 0x000B (toBytesLE 4 g ++ toBytesLE 4 u)
  s.useFree.postRec (s.mkRec 0x01 0 (s.groupStall g) 3 g 0)
/-- Retire a unit, or leave it in service with RETIRE_PENDING while its group has no free unit. -/
def State.retireUnit (s : State) (g u : Nat) : State :=
  if s.ras.pending.contains (g, u) then s
  else if s.groupUsed g < s.groupRoom g then s.retireNow g u
  else s.useFree.modRas (fun x => { x with pending := x.pending ++ [(g, u)] }) |>.postRec (s.mkRec 0x01 0 (s.groupStall g) 2 g 0)
/-- Units that waited for a free unit of their group are retired once it has one. -/
def State.pumpUnits (s : State) : State :=
  s.ras.pending.foldl (fun s x => if s.groupUsed x.1 < s.groupRoom x.1 then s.retireNow x.1 x.2 else s) s

/-! ### Use, in 2 MiB units (R347) -/

/-- 2 MiB for every 512 GiB or part (R333). -/
def extentUnits (units : Nat) : Nat := (units + 262143) / 262144
def bytesUnits (b : Nat) : Nat := (b + unitBytes - 1) / unitBytes
def State.hbmUse (s : State) (n : StallId) : Nat :=
  if s.stallState n = .dry then 0
  else
    let m := s.mem.fns[vfOf n]
    let v := s.serving[n]
    (m.allocs.map fun a => if a.device then 0 else (if a.tier = .hbm ∨ (a.move.any fun x => x.dest = .hbm) then a.units else 0) + extentUnits a.units).sum +
      bytesUnits (s.stagingPages (vfOf n) * 65536) + 256 +
      bytesUnits ((v.keep.containers.map (·.charge)).sum + (v.keep.vocabs.map (·.size)).sum + (v.loading.map fun l => l.cont.charge).sum)
def Alloc.flashUnits (a : Alloc) : Nat :=
  if a.tier = .flash ∨ a.retain ∨ 0 < a.upTo ∨ (a.move.any fun x => x.dest = .flash) then a.units else 0
/-- Flash in use; what a MEM_FREE gave up is released at the next commit (R337). -/
def FnMem.flashUse (m : FnMem) : Nat := (m.allocs.map Alloc.flashUnits).sum + (m.gone.map fun x => x.2.2).sum
def State.flashUse (s : State) (n : StallId) : Nat := if s.stallState n = .dry then 0 else (s.mem.fns[vfOf n]).flashUse
def State.poolUse (s : State) (n : StallId) : Nat := ((s.mem.fns[vfOf n]).allocs.map fun a => if a.tier = .pool then a.units else 0).sum
/-- Provider area in use: PF0's HBM allocations that are not the Commons, and its staging pages that hold data (R501, R517). -/
def State.providerUse (s : State) : Nat :=
  ((s.mem.fns[pf0]).allocs.map fun a => if a.tier = .hbm ∧ !a.commons then a.units else 0).sum + bytesUnits ((s.mem.fns[pf0]).staged.length * 65536)

def State.quotaHbm (s : State) (n : StallId) : Nat := (s.reg .mem (0x100 + 0x40 * n.val)).toNat
def State.quotaFlash (s : State) (n : StallId) : Nat := (s.reg .mem (0x104 + 0x40 * n.val)).toNat
def State.quotaPool (s : State) (n : StallId) : Nat := (s.reg .mem (0x108 + 0x40 * n.val)).toNat

/-- The image named in STL_IMAGE: slot and generation. -/
def State.imageNamed (s : State) (n : StallId) : Nat × Nat :=
  let h := (s.reg (.stl n) 0x10).toNat + (s.reg (.stl n) 0x14).toNat * 2 ^ 32
  (h % 65536, h / 65536)
def State.imageOf (s : State) (n : StallId) : Option Image :=
  s.mem.images.find? fun i => (i.slot, i.gen) = s.imageNamed n
/-- The Stall, not DRY, that has an image's state in hand. -/
def State.imageUser (s : State) (i : Image) : Option StallId :=
  allStalls.find? fun n => decide (s.stallState n ≠ .dry) && decide (s.imageNamed n = (i.slot, i.gen))

/-- Unallocated usable flash: 48 TB less what every image and PF0 hold, and less the shortfall of spare blocks (R352, R359). -/
def State.flashFree (s : State) : Nat :=
  let used := (s.mem.images.map fun i => match s.imageUser i with
    | some n => if s.stallState n = .freshening then (i.allocs.map Alloc.flashUnits).sum else (s.mem.fns[vfOf n]).flashUse
    | none => (i.allocs.map Alloc.flashUnits).sum).sum + (s.mem.fns[pf0]).flashUse
  22888183 - used - s.mem.flash.short

/-! ### Allocations -/

/-- The window in which a function's allocations lie, in 2 MiB units. -/
def windowOf (commons : Bool) : Nat × Nat := if commons then (commonsBase / unitBytes, commonsTop / unitBytes) else (1, commonsBase / unitBytes)

/-- Does a run of units lie in the window, free of other allocations? -/
def placeFits (l : List Alloc) (win : Nat × Nat) (units u : Nat) : Bool :=
  decide (win.1 ≤ u) && decide (u + units ≤ win.2) && l.all fun a => decide (a.base / unitBytes + a.units ≤ u) || decide (u + units ≤ a.base / unitBytes)

/-- The base of a new allocation: a free multiple of 2 MiB that the device chooses (R333, log 3). -/
def State.chooseBase (s : State) (f : Fn) (commons : Bool) (units : Nat) : Option Nat :=
  let l := (s.mem.fns[f]).allocs.filter fun a => a.commons = commons
  let win := windowOf commons
  let cands := (win.1 + s.free % (win.2 - win.1)) :: win.1 :: l.map fun a => a.base / unitBytes + a.units
  (cands.find? fun u => placeFits l win units u).map (· * unitBytes)

/-- Remove what lies in a range of a space: its bytes, its marks, its lines and the places of its sectors. -/
def State.clearRange (s : State) (f : Fn) (a n : Nat) : State :=
  let k := memKey f a
  let sec := fun (x : Nat) => decide (a / 4096 ≤ x) && decide (x * 4096 < a + n)
  ((s.modMem fun m => { m with cells := mapDrop (fun x => decide (k ≤ x) && decide (x < k + n)) m.cells,
                               poison := m.poison.filter fun b => !(decide (k / 64 ≤ b) && decide (b < (k + n) / 64)) }).dropLines fun x =>
    decide (k / 64 ≤ x) && decide (x < (k + n) / 64)).modFnMem f fun m =>
      { m with secs := mapDrop sec m.secs, wbuf := m.wbuf.filter fun x => !sec x.1, back := mapDrop (fun x => decide (a ≤ x) && decide (x < a + n)) m.back,
               backMarks := m.backMarks.filter fun b => !(decide (a ≤ b * 64) && decide (b * 64 < a + n)), copyQ := m.copyQ.filter fun p => !(decide (a / 65536 ≤ p) && decide (p * 65536 < a + n)) }

/-- Does every byte of a range lie in allocations that meet `p`? -/
def State.inAllocs (s : State) (f : Fn) (p : Alloc → Bool) : Nat → Nat → Nat → Bool
  | 0, _, n => n = 0
  | k + 1, x, n =>
    if n = 0 then true
    else match s.allocAt f x with
      | some a => p a && (if x + n ≤ a.top then true else s.inAllocs f p k a.top (x + n - a.top))
      | none => false
def State.inHbm (s : State) (f : Fn) (x n : Nat) : Bool := s.inAllocs f (fun a => decide (a.tier = .hbm)) 4097 x n
/-- Does a range lie in a function's own HBM allocations placed on die pair `d` (R188)? -/
def State.onDie (s : State) (f : Fn) (d : Die) (x n : Nat) : Bool :=
  s.inAllocs f (fun a => decide (a.tier = .hbm ∧ a.place = 4 + d.val) && !a.commons) 4097 x n

end Sys2Proof.Machine
end

