-- ==== Sys2Proof/Machine/Float.lean ====
section
/-! DEFINITION. The element formats of Table 7.1, decoded to exact values, and the one rounding of R169 and R171. -/
namespace Sys2Proof.Machine

/-- An exact value: NaN, an infinity, or ±m × 2^e. -/
inductive FVal where
  | nan
  | inf (neg : Bool)
  | fin (neg : Bool) (m : Nat) (e : Int)
deriving DecidableEq, Repr

/-- A floating-point layout of Table 7.1: exponent bits, fraction bits, bias. `ieee`: the all-ones exponent holds infinities and NaNs;
`otherwise` the format has no infinity, and `nanTop` tells whether its all-ones code is a NaN (E4M3) or a number (FP4). -/
structure FFmt where
  eb : Nat
  mb : Nat
  bias : Nat
  ieee : Bool
  nanTop : Bool
deriving DecidableEq, Repr

def fmtF32 : FFmt := ⟨8, 23, 127, true, false⟩
def fmtBF16 : FFmt := ⟨8, 7, 127, true, false⟩
def fmtE4M3 : FFmt := ⟨4, 3, 7, false, true⟩
def fmtE5M2 : FFmt := ⟨5, 2, 15, true, false⟩
def fmtFP4 : FFmt := ⟨2, 1, 1, false, false⟩

/-- The value a code stands for (Table 7.1). -/
def fdecode (f : FFmt) (c : Nat) : FVal :=
  let m := c % 2 ^ f.mb
  let ex := c / 2 ^ f.mb % 2 ^ f.eb
  let neg := c / 2 ^ (f.mb + f.eb) % 2 = 1
  let top := 2 ^ f.eb - 1
  if f.ieee && ex = top then (if m = 0 then .inf neg else .nan)
  else if f.nanTop && ex = top && m = 2 ^ f.mb - 1 then .nan
  else if ex = 0 then .fin neg m (1 - f.bias - f.mb)
  else .fin neg (2 ^ f.mb + m) ((ex : Int) - f.bias - f.mb)

/-- The code of the largest finite value, sign aside. -/
def fmaxCode (f : FFmt) : Nat :=
  if f.ieee then (2 ^ f.eb - 1) * 2 ^ f.mb - 1
  else if f.nanTop then 2 ^ (f.eb + f.mb) - 2 else 2 ^ (f.eb + f.mb) - 1

def fsign (f : FFmt) (neg : Bool) : Nat := if neg then 2 ^ (f.eb + f.mb) else 0

/-- Rounding modes of vcvt (R171). -/
inductive RMode where
  | rn | rz
deriving DecidableEq, Repr

/-- `num / den` rounded to an integer. -/
def roundDiv (md : RMode) (num den : Nat) : Nat :=
  let q := num / den
  let r := num % den
  match md with
  | .rz => q
  | .rn => if 2 * r > den || (2 * r = den && q % 2 = 1) then q + 1 else q

/-- num × 2^e as a fraction of naturals. -/
def scaleFrac (num den : Nat) (e : Int) : Nat × Nat :=
  if 0 ≤ e then (num * 2 ^ e.toNat, den) else (num, den * 2 ^ (-e).toNat)

/-- The exponent of the leading bit of num / den, both positive. -/
def fracLog2 (num den : Nat) : Int :=
  let k : Int := (Nat.log2 num : Int) - Nat.log2 den
  let (a, b) := scaleFrac num den (-k)
  if a < b then k - 1 else k

/-- The magnitude code of num / den, rounded once; none when it passes the largest finite value. -/
def roundMag (f : FFmt) (md : RMode) (num den : Nat) : Option Nat :=
  if num = 0 then some 0
  else
    let emin : Int := 1 - f.bias
    let k := max (fracLog2 num den) emin
    let u := k - f.mb
    let (a, b) := scaleFrac num den (-u)
    let q := roundDiv md a b
    -- q counts units of 2^u; a carry into the next binade keeps the same code arithmetic
    let code := (k - emin).toNat * 2 ^ f.mb + q
    if fmaxCode f < code then none else some code

/-- The canonical NaN of a format (R169, Table 7.3). -/
def fnan (f : FFmt) : Nat :=
  if f = fmtF32 then 0x7FC00000 else if f = fmtBF16 then 0x7FC0 else if f = fmtFP4 then 0 else 0x7F

def finf (f : FFmt) (neg : Bool) : Nat := fsign f neg + (2 ^ f.eb - 1) * 2 ^ f.mb

/-- Round a fraction under R169: nearest even, overflow to infinity. -/
def fround (f : FFmt) (neg : Bool) (num den : Nat) : Nat :=
  match roundMag f .rn num den with
  | some c => fsign f neg + c
  | none => finf f neg

/-- Encode an exact value under R169. -/
def fencode (f : FFmt) : FVal → Nat
  | .nan => fnan f
  | .inf n => finf f n
  | .fin n m e => let (a, b) := scaleFrac m 1 e; fround f n a b

/-- ±m as an integer at exponent `e0 ≤ e`. -/
def fscaled (n : Bool) (m : Nat) (e e0 : Int) : Int :=
  let v : Int := (m * 2 ^ (e - e0).toNat : Nat)
  if n then -v else v

/-- Exact sum; signed zeros follow IEEE 754 under round to nearest. -/
def fadd : FVal → FVal → FVal
  | .nan, _ => .nan
  | _, .nan => .nan
  | .inf a, .inf b => if a = b then .inf a else .nan
  | .inf a, _ => .inf a
  | _, .inf b => .inf b
  | .fin a m e, .fin b n g =>
    let e0 := min e g
    let v := fscaled a m e e0 + fscaled b n g e0
    if v = 0 then .fin (a && b) 0 e0 else .fin (decide (v < 0)) v.natAbs e0

def fneg : FVal → FVal
  | .nan => .nan
  | .inf a => .inf !a
  | .fin a m e => .fin (!a) m e

/-- Exact product. -/
def fmul : FVal → FVal → FVal
  | .nan, _ => .nan
  | _, .nan => .nan
  | .inf a, .inf b => .inf (a != b)
  | .inf a, .fin b n _ => if n = 0 then .nan else .inf (a != b)
  | .fin a m _, .inf b => if m = 0 then .nan else .inf (a != b)
  | .fin a m e, .fin b n g => .fin (a != b) (m * n) (e + g)

/-- Does a value stand for a number below zero, zero or above? Compare two values that are not NaN. -/
def fltLt : FVal → FVal → Bool
  | .nan, _ => false
  | _, .nan => false
  | .inf a, .inf b => a && !b
  | .inf a, _ => a
  | _, .inf b => !b
  | .fin a m e, .fin b n g => let e0 := min e g; decide (fscaled a m e e0 < fscaled b n g e0)

def fltEq : FVal → FVal → Bool
  | .nan, _ => false
  | _, .nan => false
  | .inf a, .inf b => a = b
  | .inf _, _ => false
  | _, .inf _ => false
  | .fin a m e, .fin b n g => let e0 := min e g; decide (fscaled a m e e0 = fscaled b n g e0)

def FVal.isNan : FVal → Bool
  | .nan => true
  | _ => false
def FVal.isFin : FVal → Bool
  | .fin .. => true
  | _ => false
/-- The sign bit as IEEE 754 keeps it. -/
def FVal.neg : FVal → Bool
  | .nan => false
  | .inf a => a
  | .fin a _ _ => a
def FVal.abs : FVal → FVal
  | .nan => .nan
  | .inf _ => .inf false
  | .fin _ m e => .fin false m e

/-- A binary32 word read as a value. -/
def f32 (w : BitVec 32) : FVal := fdecode fmtF32 w.toNat
/-- Round a value once to binary32 (R169). -/
def toF32 (v : FVal) : BitVec 32 := BitVec.ofNat 32 (fencode fmtF32 v)
/-- x + y, rounded to binary32. -/
def f32Add (x y : BitVec 32) : BitVec 32 := toF32 (fadd (f32 x) (f32 y))
def f32Mul (x y : BitVec 32) : BitVec 32 := toF32 (fmul (f32 x) (f32 y))

/-- x / y of two finite values, y not zero, rounded to a format under R169. -/
def fdivRound (f : FFmt) (x y : FVal) : Nat :=
  match x, y with
  | .fin a m e, .fin b n g =>
    let (p, q) := scaleFrac m n (e - g)
    fround f (a != b) p q
  | _, _ => fnan f

/-- A value rounded to an integer by mode; none for NaN. Infinities give none with their sign. -/
def froundInt (md : RMode) : FVal → Int
  | .nan => 0
  | .inf _ => 0
  | .fin a m e => let (p, q) := scaleFrac m 1 e; let r : Int := roundDiv md p q; if a then -r else r

end Sys2Proof.Machine
end

