-- ==== Sys2Proof/Machine/Forms.lean ====
section
/-! DEFINITION. The encoding rules of the Dythe instructions (R87–R89, R94–R103): which fields an operation uses, which types it takes.
One table serves the instruction commands and the loader's checks (R115). -/
namespace Sys2Proof.Machine

def DyC (w : DyWord) : BitVec 5 := w.low.extractLsb' 27 5
def DySub (w : DyWord) : BitVec 16 := w.low.extractLsb' 0 16

/-- An instruction word: operation and fields (Table 4.2). -/
def decodeDy (b : BitVec 64) : Nat × DyWord :=
  ((b.extractLsb' 56 8).toNat, { pe := b.getLsbD 55, pr := b.extractLsb' 52 3, t := b.extractLsb' 48 4, d := b.extractLsb' 43 5, a := b.extractLsb' 38 5, b := b.extractLsb' 33 5,
                                 i := b.getLsbD 32, low := b.extractLsb' 0 32 })

/-- How an instruction uses bit I (R89). -/
inductive ImmUse where
  /-- The operands include IMM: I = 1. -/
  | imm
  /-- B′: register B with I = 0, IMM with I = 1. -/
  | bPrime
  /-- C or SUB is read: I = 0. -/
  | sub
  /-- Neither: I = 0 and bits 31:0 zero. -/
  | none
deriving DecidableEq, Repr

/-- Predication of an operation (Table 4.6). -/
inductive PredUse where
  | no | may | must
deriving DecidableEq, Repr

/-- The encoding of one operation: OP, how many values each register field may take (0: not used), the accepted types
(none: T must be 0), and the SUB bits with a meaning. -/
structure Form where
  op    : Nat
  d     : Nat := 0
  a     : Nat := 0
  b     : Nat := 0
  c     : Nat := 0
  imm   : ImmUse := .none
  types : List Nat := []
  pred  : PredUse := .no
  sub   : Nat := 0
deriving DecidableEq, Repr

def intTypes : List Nat := [0, 1, 2, 3, 4, 5]
def arithTypes : List Nat := [0, 1, 2, 3, 4, 5, 7, 8]
def allTypes : List Nat := [0, 1, 2, 3, 4, 5, 7, 8, 9, 10, 11, 12]

def scalarB (op : Nat) : Form := { op, d := 32, a := 32, b := 32, imm := .bPrime }
def scalarImm (op : Nat) : Form := { op, d := 32, imm := .imm }
def scalarUn (op : Nat) : Form := { op, d := 32, a := 32 }
def loadForm (op : Nat) : Form := { op, d := 32, a := 32, imm := .imm }
def storeForm (op : Nat) : Form := { op, a := 32, b := 32, imm := .imm }
def vecBin (op : Nat) (ts : List Nat) : Form := { op, d := 32, a := 32, b := 32, types := ts, pred := .may, imm := .sub }
def vecUn (op : Nat) (ts : List Nat) : Form := { op, d := 32, a := 32, types := ts, pred := .may, imm := .sub }
def vecSat (op : Nat) (b c : Nat) : Form := { op, d := 32, a := 32, b, c, types := arithTypes, pred := .may, imm := .sub, sub := 1 }

/-- The forms, in the order of Tables 4.4 to 4.11. -/
def dyForms : List Form :=
  [scalarB 0x01, scalarB 0x02, scalarB 0x03, scalarB 0x04, scalarB 0x05, scalarB 0x06, scalarB 0x07, scalarB 0x08, scalarB 0x09,
   scalarB 0x0A, scalarB 0x0B, scalarB 0x0C, scalarB 0x0D, scalarB 0x0E, scalarB 0x0F, scalarB 0x10, scalarB 0x11, scalarB 0x12, scalarB 0x13,
   scalarB 0x14, scalarB 0x15, scalarB 0x16, scalarImm 0x17, scalarImm 0x18, scalarUn 0x19, scalarUn 0x1A, scalarUn 0x1B,
   scalarImm 0x1C, scalarImm 0x1D] ++
  [loadForm 0x20, loadForm 0x21, loadForm 0x22, loadForm 0x23, loadForm 0x24, loadForm 0x25, loadForm 0x26,
   storeForm 0x28, storeForm 0x29, storeForm 0x2A, storeForm 0x2B] ++
  [storeForm 0x30, storeForm 0x31, storeForm 0x32, storeForm 0x33, storeForm 0x34, storeForm 0x35,
   { op := 0x36, imm := .imm }, { op := 0x37, imm := .imm }, { op := 0x38 }, { op := 0x39, d := 4, a := 32, imm := .imm },
   { op := 0x3A, a := 32 }, { op := 0x3B, a := 32 }, { op := 0x3C }, { op := 0x3D, imm := .imm }, { op := 0x3E }] ++
  [vecSat 0x40 32 0, vecSat 0x41 32 0, vecSat 0x42 32 0, vecSat 0x43 32 32, vecBin 0x44 arithTypes, vecBin 0x45 arithTypes,
   vecSat 0x46 0 0, vecSat 0x47 0 0, vecBin 0x48 allTypes, vecBin 0x49 allTypes, vecBin 0x4A allTypes, vecBin 0x4B intTypes,
   vecBin 0x4C intTypes, vecBin 0x4D intTypes, { vecUn 0x4E allTypes with sub := 0xF703 }, vecUn 0x4F allTypes,
   { op := 0x50, d := 32, a := 32, imm := .imm, types := allTypes }, { op := 0x51, d := 32, a := 32, imm := .imm, types := allTypes },
   { op := 0x52, d := 32, a := 32, imm := .imm, types := allTypes, pred := .may },
   { op := 0x53, a := 32, b := 32, imm := .imm, types := allTypes, pred := .may },
   vecBin 0x54 allTypes, { op := 0x55, a := 32, b := 32, c := 32, types := allTypes, pred := .may, imm := .sub },
   { vecUn 0x56 arithTypes with sub := 3 }, { op := 0x57, d := 8, a := 32, b := 32, types := arithTypes, pred := .may, imm := .sub, sub := 7 },
   { vecBin 0x58 allTypes with pred := .must }, vecBin 0x59 allTypes,
   { op := 0x5A, d := 32, a := 32, imm := .imm, types := allTypes, pred := .may },
   vecUn 0x5B [8], vecUn 0x5C [8], vecUn 0x5D [8], vecUn 0x5E allTypes, vecUn 0x5F [8]] ++
  [{ op := 0x80, d := 8, a := 8, b := 8 }, { op := 0x81, d := 8, a := 8, b := 8 }, { op := 0x82, d := 8, a := 8, b := 8 },
   { op := 0x83, d := 8, a := 8 }, { op := 0x84, d := 8, a := 32 }, { op := 0x85, d := 32, a := 8, types := allTypes }] ++
  [{ op := 0x90, a := 32, types := [0, 7, 9, 10, 11, 12] }, { op := 0x91 },
   { op := 0x92, d := 2, a := 32, b := 32, types := [0, 1, 7, 9, 10, 11, 12], imm := .sub, sub := 1 },
   { op := 0x93, d := 2, a := 32, b := 32, c := 32, types := [0, 1, 7, 8, 9, 10, 11, 12], imm := .sub }, { op := 0x94, d := 2 },
   { op := 0x95, d := 32, a := 32, b := 32, types := [0, 7, 9, 10, 11, 12], imm := .sub, sub := 7 }] ++
  [{ op := 0xA0, d := 16, a := 32, b := 32, c := 32, types := [0, 1, 7, 9, 10, 11, 12], imm := .sub, sub := 1 },
   { op := 0xA1, d := 16, a := 32, b := 32, c := 32, imm := .sub }, { op := 0xA2, imm := .imm }] ++
  [{ op := 0xB0, d := 32, a := 32, types := [4, 8] }, { op := 0xB1, d := 32, a := 32, b := 32, c := 32, types := [4, 8], imm := .sub },
   { op := 0xB2, d := 32, a := 32, b := 32, c := 32, types := [4, 7, 8], imm := .sub },
   { op := 0xB3, d := 32, a := 32, b := 32, c := 32, types := [4, 8], imm := .sub }] ++
  [{ op := 0xC0, d := 32, a := 32, imm := .sub, sub := 15 }, { op := 0xC1, d := 32, a := 32, imm := .sub, sub := 15 },
   { op := 0xC2, d := 32, imm := .sub, sub := 0xFFFF }, { op := 0xC3, d := 32, a := 32, b := 32 }, { op := 0xC4 },
   { op := 0xC5, imm := .sub, sub := 7 }]

def dyForm (op : Nat) : Option Form := dyForms.find? fun f => f.op == op

/-- Lanes of a vector register at type T (Table 4.3). -/
def lanesOf (t : BitVec 4) : Nat :=
  match t.toNat with
  | 0 | 1 | 9 | 10 => 256
  | 2 | 3 | 7 => 128
  | 4 | 5 | 8 => 64
  | _ => 512

/-- Bits of a lane at type T. -/
def laneBits (t : BitVec 4) : Nat := 2048 / lanesOf t

/-- The refusal reason of one register field that may hold `n` values (R89). -/
def fieldOk (n : Nat) (x : BitVec 5) : Bool := if n = 0 then x = 0 else decide (x.toNat < n)

/-- Operand ranges that the encoding itself fixes (R94, R97, Tables 4.4, 4.6). -/
def dyRangeOk (w : DyWord) (op : Nat) : Bool :=
  let sub := (DySub w).toNat
  let sat := sub % 2 = 1
  if op = 0x1C then decide (w.low.toNat ≤ 4)
  else if op = 0x1D then decide (w.low.toNat ≤ 3)
  else if op = 0x40 ∨ op = 0x41 ∨ op = 0x42 ∨ op = 0x43 ∨ op = 0x46 ∨ op = 0x47 then !sat || intTypes.contains w.t.toNat
  else if op = 0x4E then
    let r := max (lanesOf w.t) (lanesOf ((DySub w).extractLsb' 12 4)) / min (lanesOf w.t) (lanesOf ((DySub w).extractLsb' 12 4))
    decide (sub % 4 ≤ 1) && allTypes.contains (sub / 4096) && decide (sub / 256 % 8 < r)
  else if op = 0x50 ∨ op = 0x51 then decide (w.low.toNat < lanesOf w.t)
  else if op = 0x56 then decide (sub % 4 ≤ 2)
  else if op = 0x57 then decide (sub % 8 ≤ 5)
  else if op = 0x95 then
    let n := sub % 8 + 1
    decide (w.a.toNat + n ≤ 32) && decide (w.d.toNat + n ≤ 32) &&
      (decide (w.a.toNat + n ≤ w.d.toNat) || decide (w.d.toNat + n ≤ w.a.toNat))
  else if op = 0xA0 then sat || w.t = 0
  else true

/-- Queue numbers of qpush and qpop (R103). -/
def dyQueueOk (w : DyWord) (op : Nat) : Bool :=
  let q := (DySub w).toNat % 16
  if op = 0xC0 then [1, 3, 5, 8].contains q else if op = 0xC1 then [0, 2, 4, 6, 7].contains q else true

/-- The reason of Table 4.17 for which the loader refuses an instruction, or none (R88, R89, R115). -/
def dyRefusal (op : Nat) (w : DyWord) : Option Nat :=
  match dyForm op with
  | none => some 0x04
  | some f =>
    let useImm := match f.imm with | .imm => true | .bPrime => w.i | _ => false
    let bUsed := if f.imm = .bPrime && w.i then 0 else f.b
    let fields := fieldOk f.d w.d && fieldOk f.a w.a && fieldOk bUsed w.b
    let iBit := match f.imm with | .imm => w.i | .bPrime => true | _ => !w.i
    let low := useImm || (fieldOk f.c (DyC w) && w.low.extractLsb' 16 11 = 0 && (DySub w) &&& ~~~(BitVec.ofNat 16 f.sub) = 0)
    let pred := match f.pred with
      | .no => !w.pe && w.pr = 0
      | .may => w.pe || w.pr = 0
      | .must => w.pe
    let tZero := !f.types.isEmpty || w.t = 0
    if !(fields && iBit && low && pred && tZero && dyRangeOk w op) then some 0x04
    else if !f.types.isEmpty && !f.types.contains w.t.toNat then
      (if allTypes.contains w.t.toNat then some 0x05 else some 0x04)
    else if !dyQueueOk w op then some 0x08
    else none

/-- May a tile meet this instruction? Only what the loader accepts reaches a tile (R89). -/
def dyOk (op : Nat) (w : DyWord) : Bool := dyRefusal op w = none

end Sys2Proof.Machine
end

