-- ==== Sys2Proof/Machine/Operands.lean ====
section
/-! DEFINITION. The operand forms of Dythe instructions: registers, immediates, lanes, predicates, interlocks, and how the pc moves. -/
namespace Sys2Proof.Machine

/-- s0 reads as zero (Table 4.1). -/
def Tile.sreg (t : Tile) (r : BitVec 5) : BitVec 64 := if r = 0 then 0 else t.s[r.toNat]
/-- Writes to s0 are discarded. -/
def Tile.setS (t : Tile) (r : BitVec 5) (x : BitVec 64) : Tile := if r = 0 then t else { t with s := t.s.set r.toNat x }
def Tile.vreg (t : Tile) (r : BitVec 5) : BitVec 2048 := t.v[r.toNat]
def Tile.setV (t : Tile) (r : BitVec 5) (x : BitVec 2048) : Tile := { t with v := t.v.set r.toNat x }
/-- Vector register `i` of a range, by number. -/
def Tile.vnum (t : Tile) (i : Nat) : BitVec 2048 := t.vreg (BitVec.ofNat 5 i)
def Tile.pred (t : Tile) (r : BitVec 5) : BitVec 256 := t.vp[r.toNat % 8]
def Tile.setPred (t : Tile) (r : BitVec 5) (x : BitVec 256) : Tile := { t with vp := t.vp.set (r.toNat % 8) x }

/-- The instruction at the pc of the kernel that runs: operation and fields of that word of its code (R87). -/
def Tile.fetch (t : Tile) : Option (Nat × DyWord) := t.run.bind fun r => r.code[t.pc]?.map decodeDy

/-- IMM, sign-extended (Table 4.2). -/
def dyImm (w : DyWord) : BitVec 64 := w.low.signExtend 64
/-- B′: register B when I = 0, IMM when I = 1. -/
def Tile.bPrime (t : Tile) (w : DyWord) : BitVec 64 := if w.i then dyImm w else t.sreg w.b
/-- sA + IMM, as a byte offset. -/
def Tile.addrA (t : Tile) (w : DyWord) : Nat := (t.sreg w.a + dyImm w).toNat

/-- Does an amoadd outstanding write one of these scalar registers (R105)? -/
def Tile.busyS (t : Tile) (rs : List (BitVec 5)) : Bool := t.amo.any fun (r, _, _) => rs.any fun x => x.toNat = r.val
/-- Does an mvx outstanding write one of these vector registers (R105)? -/
def Tile.busyV (t : Tile) (vs : List Nat) : Bool := t.mv.any fun m => vs.any fun x => decide (m.vd ≤ x) && decide (x < m.vd + m.n)

/-! ### Selection records (Table 9.1) -/

def pad16 (n : Nat) : Nat := (n + 15) / 16 * 16
def recordBytes (n : Nat) : Nat := 64 + 16 * pad16 n
/-- v24–v31, the working registers of topk and tkmerge (R101). -/
def workRegs : List Nat := [24, 25, 26, 27, 28, 29, 30, 31]
/-- Are some of the bytes of a range, which may be empty, marked as poisoned? -/
def Tile.markedSome (t : Tile) (a n : Nat) : Bool := decide (n ≠ 0) && t.marked a n
/-- What a topk or tkmerge that did not end leaves: the record and the working registers hold free bytes (R233, log 13). -/
def Tile.leaveRecord (t : Tile) (b k : Nat) (left : Nat → Byte) : Tile :=
  let n := recordBytes k
  let t := t.write b ((List.range n).map left)
  workRegs.foldl (fun t i => t.setV (BitVec.ofNat 5 i) (BitVec.ofNat 2048 (ofBytesLE ((List.range 256).map fun j => left (n + 256 * i + j))))) t
/-- A kernel stops while its instruction at the pc may run: a topk or tkmerge leaves free bytes (R233, log 13). -/
def Tile.cutSelection (t : Tile) (left : Nat → Byte) : Tile :=
  match t.fetch with
  | some (op, w) =>
    let b := (t.sreg w.b).toNat
    let k := if op = 0xB2 then (t.sreg (DyC w)).toNat / 2 ^ 32 % 2 ^ 11 else (t.sreg (DyC w)).toNat % 2 ^ 11
    if (op = 0xB2 ∨ op = 0xB3) ∧ 0 < k ∧ k ≤ 1024 ∧ b % 64 = 0 ∧ tsOk b (recordBytes k) = true then t.leaveRecord b k left else t
  | none => t

/-- What an instruction does at its issue: it waits (R105), ends and lets the pc go on, ends with the pc set, or faults (R107). -/
inductive TStep where
  | hold
  | go (t : Tile)
  | jump (t : Tile)
  | fault (c : Cause) (code : BitVec 16)
  /-- It faults with an effect begun, that free bytes fill (R233). -/
  | part (f : (Nat → Byte) → Tile) (c : Cause) (code : BitVec 16)

/-- The instruction after address `pc`: the end of a loop body repeats the body or leaves the loop (R92). -/
def loopBack (pc : Nat) : List LoopFrame → Vector (BitVec 32) 4 → Nat × List LoopFrame × Vector (BitVec 32) 4
  | [], lc => (pc + 1, [], lc)
  | f :: fs, lc =>
    if pc = f.last then
      (if 1 < f.left then (f.first, { f with left := f.left - 1 } :: fs, lc.set f.depth (lc[f.depth] + 1)) else loopBack pc fs lc)
    else (pc + 1, f :: fs, lc)

/-- Go on to the next instruction after the one at `pc`. -/
def Tile.advanceFrom (t : Tile) (pc : Nat) : Tile :=
  let r := loopBack pc t.loops t.lc
  { t with pc := r.1, loops := r.2.1, lc := r.2.2 }
def Tile.advance (t : Tile) : Tile := t.advanceFrom t.pc

/-- The current instruction address plus IMM (R91). -/
def Tile.target (t : Tile) (w : DyWord) : Nat := ((t.pc : Int) + w.low.toInt).toNat

/-! ### Lanes -/

/-- Lane `i` of a register at `bits` a lane. -/
def lane (x : BitVec 2048) (bits i : Nat) : Nat := x.toNat / 2 ^ (bits * i) % 2 ^ bits

/-- A register from the values of its lanes, lane 0 lowest. -/
def packLanes (bits : Nat) : List Nat → Nat
  | [] => 0
  | x :: xs => x % 2 ^ bits + 2 ^ bits * packLanes bits xs

/-- Is lane `i` active (R88)? For the 512-lane types bit j governs lanes 2j and 2j + 1. -/
def Tile.active (t : Tile) (w : DyWord) (ty : BitVec 4) (i : Nat) : Bool :=
  !w.pe || t.vp[w.pr.toNat].getLsbD (if lanesOf ty = 512 then i / 2 else i)

/-- A destination register: active lanes from `f`, inactive lanes kept. -/
def Tile.mapLanes (t : Tile) (w : DyWord) (f : Nat → Nat) : BitVec 2048 :=
  let bits := laneBits w.t
  let old := t.vreg w.d
  BitVec.ofNat 2048 (packLanes bits ((List.range (lanesOf w.t)).map fun i => if t.active w w.t i then f i else lane old bits i))

/-- Signed types of Table 4.3. -/
def tySigned (t : BitVec 4) : Bool := [0, 2, 4, 11].contains t.toNat
def tyInt (t : BitVec 4) : Bool := [0, 1, 2, 3, 4, 5, 11].contains t.toNat
/-- The layout of a floating type. -/
def tyFmt (t : BitVec 4) : FFmt :=
  match t.toNat with
  | 7 => fmtBF16 | 8 => fmtF32 | 9 => fmtE4M3 | 10 => fmtE5M2 | _ => fmtFP4

/-- The integer that a lane of `bits` holds. -/
def laneInt (ty : BitVec 4) (x : Nat) : Int :=
  let b := laneBits ty
  if tySigned ty && decide (2 ^ (b - 1) ≤ x) then (x : Int) - 2 ^ b else x
def tyMin (ty : BitVec 4) : Int := if tySigned ty then -(2 ^ (laneBits ty - 1) : Int) else 0
def tyMax (ty : BitVec 4) : Int := if tySigned ty then 2 ^ (laneBits ty - 1) - 1 else 2 ^ laneBits ty - 1
/-- An integer result in a lane: wrapped, or saturated when .sat is given (R94). -/
def intLane (ty : BitVec 4) (sat : Bool) (x : Int) : Nat :=
  let x := if sat then max (tyMin ty) (min (tyMax ty) x) else x
  (x % 2 ^ laneBits ty).toNat

end Sys2Proof.Machine
end

