-- ==== Sys2Proof/Machine/Batches.lean ====
section
/-! DEFINITION. Work items, batches and kernels: placing, taking, ending, faulting and overrunning (R109, R124–R141, R181–R185, R304–R311). -/
namespace Sys2Proof.Machine

def Serving.inboxOf (v : Serving) (d : Die) : List Item := mapGet [] v.inbox d.val
def Serving.setInbox (v : Serving) (d : Die) (l : List Item) : Serving := { v with inbox := mapSet [] v.inbox d.val l }
def Serving.modBatch (v : Serving) (num : Nat) (g : Batch → Batch) : Serving := { v with batches := v.batches.map fun b => if b.num = num then g b else b }
def Serving.batch? (v : Serving) (num : Nat) : Option Batch := v.batches.find? fun b => b.num = num

/-- A loaded kernel by its handle, with its container (R116). -/
def Serving.kernel? (v : Serving) (h : BitVec 16) : Option (Container × Kernel) :=
  v.keep.containers.findSome? fun c => (c.kernels.find? fun k => k.handle = h).map fun k => (c, k)
def Serving.bound (v : Serving) (h : BitVec 16) : Nat := match v.kernel? h with | some (_, k) => k.bound | none => 0

/-! ### Translations of unloaded containers (R117) -/

/-- Is an instance of a container's kernels queued or running, or can a batch in flight still place one? -/
def State.containerBusy (s : State) (n : StallId) (c : Container) : Bool :=
  let has := fun (h : BitVec 16) => c.kernels.any fun k => k.handle = h
  let named := fun (i : Item) => has i.handle
  let v := s.serving[n]
  v.batches.any (fun b => b.roots.any fun x => named x.1 || has x.2) || v.segs.any (fun x => x.2.any named) || v.inbox.any (fun x => x.2.any named) ||
    allTiles.any fun t => decide ((s.tiles[t]).owner = some n) &&
      (((s.tiles[t]).staged.any named) || ((s.tiles[t]).run.any fun r => named r.item))

/-- Free the translations of pending unloads that no instance uses any longer, with their HBM charge. -/
def State.freeUnloaded (s : State) (n : StallId) : State :=
  let gone := (s.serving[n]).keep.containers.filter fun c => c.unloading && !s.containerBusy n c
  if gone.isEmpty then s
  else
    let f := vfOf n
    let dead := (s.mem.fns[f]).allocs.filter fun a => a.device && gone.any fun c => c.consts = a.base
    let s := dead.foldl (fun s a => s.clearRange f a.base (a.units * unitBytes)) s
    (s.modFnMem f fun m => { m with allocs := m.allocs.filter fun a => !dead.contains a }).modSrv n fun v =>
      { v with keep := { v.keep with containers := v.keep.containers.filter fun c => !gone.contains c } }

/-! ### Placing root items (R127) -/

/-- The root items of a batch as they are placed: with their wide handles once the batch is wide (R182). -/
def Batch.items (b : Batch) : List Item := b.roots.map fun x => if b.wide then { x.1 with handle := x.2 } else x.1

/-- Place a batch whole in the inbox of its C-die, or leave it waiting for room. -/
def State.placeBatch (s : State) (n : StallId) (num : Nat) : State :=
  match (s.serving[n]).batch? num with
  | none => s
  | some b =>
    let box := (s.serving[n]).inboxOf b.die
    if box.length + b.roots.length ≤ 1024 then
      s.modSrv n fun v => (v.setInbox b.die (box ++ b.items)).modBatch num fun b => { b with waiting := false, pins := some (b.pins.getD ((s.serving[n]).keep.tables.map fun x => (x.handle, x.version))) }
    else s.modSrv n fun v => v.modBatch num fun b => { b with waiting := true }

/-! ### The end of a batch (R125, R134, R136, R182–R185, R305, R311) -/

/-- Popped entries return to the head of their shares in their original order, except those of cancelled requests (R305). -/
def Serving.returnPopped (v : Serving) (b : Batch) : Serving :=
  b.popped.reverse.foldl (fun v (q, e) => if v.live e.tag then v.setQueue b.die q (e :: v.queue b.die q) else v) v

/-- Stage at which a batch's failure arises, for one of its requests (Table 1.2). -/
def Batch.stageFor (b : Batch) (tag : Word) : BitVec 8 :=
  let popped : BitVec 8 := match b.popped.find? fun x => x.2.tag = tag with | some x => queueStage x.1 | none => 9
  match b.kind with
  | .dispatch t => if t = tag then 0 else popped
  | .trigger s => if s = 0 then 2 else if s = 1 then 4 else 6
  | .gen _ _ => match b.rows.find? (fun r => r.tag = tag) with
    | some r => if r.decode then 9 else 8
    | none => popped

/-- The requests of a batch that are still in flight and not cancelled. -/
def Serving.batchReqs (v : Serving) (b : Batch) : List Word := b.tags.filter v.live

/-- Mark every live request of a batch. -/
def State.markReqs (s : State) (n : StallId) (l : List Word) (g : Request → Request) : State := l.foldl (fun s t => s.modReq n t g) s

/-- Charge a row's tokens to the Stall and to its client (R317). Tokens are counted since cold reset. -/
def tokensLeft (left : Word) (k : Nat) : Word := if left = 0xFFFFFFFF then left else BitVec.ofNat 32 (left.toNat - k)
def State.chargeRow (s : State) (n : StallId) (r : GenRow) : State :=
  let cl := match (s.serving[n]).req? r.tag with | some q => q.client | none => 4096
  (s.modSrv n fun v => { v with left := tokensLeft v.left r.ntok, charged := v.charged + BitVec.ofNat 64 r.ntok,
                                keep := { v.keep with clients := v.keep.clients.map fun c => if c.id = cl then { c with left := tokensLeft c.left r.ntok } else c } }).count (some n) 0x014 r.ntok

/-- Place a batch again: its popped entries go back, its root items into the inbox (R134, R182). A generation batch's rows are charged again (R317). -/
def State.replace (s : State) (n : StallId) (b : Batch) (b' : Batch) : State :=
  let s := s.modSrv n fun v => (v.returnPopped b).modBatch b.num fun _ => { b' with ending := none, popped := [], served := [] }
  (b.rows.foldl (fun s r => s.chargeRow n r) s).placeBatch n b.num

/-- The pages of a builder's handle are covered: the handle is ready (R314). -/
def Serving.readyHandle (v : Serving) (q : Request) (upTo : Nat) : Serving :=
  match q.handle with
  | some h =>
    if q.builder then
      { v with handles := v.handles.map fun x => if x.id = h && !x.ready && decide (x.len ≤ upTo) then { x with ready := true } else x }
    else v
  | none => v

/-- A generation batch ended without a failure: prefill positions advance; rows that pushed nothing are offered again (R311). -/
def State.endRow (s : State) (n : StallId) (b : Batch) (r : GenRow) : State :=
  match (s.serving[n]).req? r.tag with
  | none => s
  | some q =>
    if q.cancelled || b.dead.contains r.tag then s
    else if r.decode then (if r.pushed then s else s.modReq n r.tag fun q => { q with ready := true })
    else
      let upTo := r.pos + r.ntok
      let s := s.modSrv n fun v => v.readyHandle q upTo
      if r.step = 0 ∨ r.pushed then
        s.modReq n r.tag fun q => { q with pos := max q.pos upTo, phase := if q.promptLen ≤ upTo ∧ q.phase = .prefill then .decode else q.phase }
      else s

/-- BOUND exceeds every valid slot of the Stall in the bank in force (R108). -/
def State.boundTooLong (s : State) (n : StallId) (h : BitVec 16) : Bool :=
  let es := s.stallEntries n
  !es.isEmpty && es.all fun e => decide (e.length * 1300 < (s.serving[n]).bound h)

/-- A batch is over: none of its items is queued or running. -/
def State.batchOver (s : State) (n : StallId) (b : Batch) : State :=
  let reqs := (s.serving[n]).batchReqs b
  let gone := fun (s : State) => s.modSrv n fun v => { v with batches := v.batches.filter fun x => x.num ≠ b.num }
  if (s.serving[n]).allCancelled b then gone s
  else
    let fail := fun (f : Failure) => (reqs.foldl (fun s t => s.failReq n t { f with stage := b.stageFor t, batch := BitVec.ofNat 32 b.num }) (gone s))
    match b.ending with
    | some (.fault f) => fail f
    | some (.overflow f) =>
      if !b.wide && b.roots.all (fun x => x.2 ≠ 0xFFFF) then
        -- R108 applies to the wide kernels.
        match b.roots.find? fun x => s.boundTooLong n x.2 with
        | some x => fail { status := .overrun, fault := 0x110, kh := x.2 }
        | none => ((s.markReqs n reqs fun q => { q.note 0x800 with wide := true }).replace n b { b with wide := true }).count (some n) 0x025 1
      else fail f
    | some (.overrun f) =>
      if 0 < b.retry then
        (s.markReqs n reqs fun q => { q.note 0x1000 with retried := true }).replace n b { b with retry := b.retry - 1, again := true }
      else fail f
    | none =>
      match b.kind with
      | .dispatch t => (gone s).endRequest n t
      | .trigger _ => gone s
      | .gen _ _ => b.rows.foldl (fun s r => s.endRow n b r) (gone s)

/-- Does an item of the batch stand queued, staged or running? -/
def State.batchBusy (s : State) (n : StallId) (num : Nat) : Bool :=
  let v := s.serving[n]
  let mine := fun (i : Item) => decide (i.batch = num)
  v.segs.any (fun x => x.2.any mine) || v.inbox.any (fun x => x.2.any mine) ||
    allTiles.any fun t => ((s.tiles[t]).staged.any mine) || ((s.tiles[t]).run.any fun r => mine r.item)

/-- Report the end of a batch when it is over (R125). -/
def State.batchCheck (s : State) (n : StallId) (num : Nat) : State :=
  match (s.serving[n]).batch? num with
  | none => s
  | some b => if (b.waiting && !(s.serving[n]).allCancelled b) || s.batchBusy n num then s else s.batchOver n b

/-- End every batch that has become over by the removal of queued items. -/
def State.batchSweep (s : State) (n : StallId) : State := (s.serving[n]).batches.foldl (fun s b => s.batchCheck n b.num) s

/-- The stronger of two causes decides the outcome; the first of a kind stands (R184). -/
def BatchEnd.rank : BatchEnd → Nat
  | .fault _ => 0
  | .overflow _ => 1
  | .overrun _ => 2
def Batch.note (b : Batch) (e : BatchEnd) : Batch :=
  match b.ending with
  | some e0 => if e.rank < e0.rank then { b with ending := some e } else b
  | none => { b with ending := some e }

/-- Steps 1 and 2 of R134, with the cause that ends the batch. -/
def State.endBatch (s : State) (n : StallId) (num : Nat) (e : BatchEnd) : State :=
  (s.modSrv n fun v => v.modBatch num fun b => b.note e).dropQueued n num

/-! ### Kernels -/

/-- The tile starts an item: s1–s8 and s30 are loaded, and everything else that R85 names is zero or idle. -/
def Tile.start (t : Tile) (n : StallId) (c : Container) (i : Nat) (k : Kernel) (it : Item) (now : Nat) : Tile :=
  let z := Tile.reset
  let s := (List.range 8).foldl (fun s j => s.set! (j + 1) (it.args.getD j 0)) (z.s.set! 30 (BitVec.ofNat 64 c.consts))
  { z with s, pc := k.start, store := t.store, marks := t.marks, quar := t.quar, activity := t.activity, fInfo := t.fInfo, fPc := t.fPc, fKh := t.fKh, fBatch := t.fBatch,
           items := t.items + 1, steals := t.steals, ce := t.ce, owner := some n, staged := t.staged,
           run := some { stall := n, item := it, cont := c.id, start := k.start, len := k.len, bound := k.bound, consts := i, code := c.code, since := now, ran := 0, seen := 0 } }

/-- A staged item returns to the head of its segment (R133, R140). -/
def State.unstage (s : State) (n : StallId) (t : TileId) : State :=
  match (s.tiles[t]).staged with
  | some i => (s.modSrv n fun v => v.setSegment t (i :: v.segment t)).modTile t fun tl => { tl with staged := none }
  | none => s

/-- Index of a kernel in its container. -/
def Container.indexOf (c : Container) (h : BitVec 16) : Nat := c.kernels.findIdx fun k => k.handle = h

def State.startItem (s : State) (n : StallId) (t : TileId) (it : Item) : State :=
  match (s.serving[n]).kernel? it.handle with
  | some (c, k) => ((s.modTile t fun tl => tl.start n c (c.indexOf it.handle) k it s.now).count (some n) 0x020 1).stageItem n t
  | none => s

/-- Zero-fill the tile's save area in every Stall that holds one (R140). -/
def State.zeroSaves (s : State) (t : TileId) : State :=
  allStalls.foldl (fun s n => s.modSrv n fun v => { v with saves := mapDrop (fun k => decide (k = t.val)) v.saves }) s

/-- A tile enters quarantine (R139, R140, R449); the record of an uncorrectable error (cause 2) stands for its quarantine too. -/
def State.quarantine (s : State) (t : TileId) (cause : BitVec 4) : State :=
  let s := if cause = 2 then s else s.useFree.postRec (s.mkRec 0x04 0 (s.tiles[t]).owner 4 t.val 0)
  let s := match (s.tiles[t]).owner with | some n => s.unstage n t | none => s
  ((s.modTile t fun tl => { tl with quar := .quar cause }).zeroSaves t).raise (.til t) 0x4

/-- What ends a kernel from outside cuts the instruction off that it runs (R233). -/
def State.cutKernel (s : State) (t : TileId) : State := s.useFree.modTile t fun tl => tl.cutSelection (Config.selectionLeft s.fresh)

/-- The kernel on a tile is no longer running: its CCLK are counted, a pending quarantine begins. -/
def State.leaveKernel (s : State) (t : TileId) (r : Running) : State :=
  let s := s.count (some r.stall) 0x026 (s.ranNow r / usBclk)
  let s := s.modTile t fun tl => { tl with run := none, last := some r, loops := [], ret := [] }
  match (s.tiles[t]).quar with
  | .pending c => s.quarantine t c
  | _ => s

/-- Are the tile's units and engines idle (R165, R166)? -/
def Tile.idle (t : Tile) : Bool := t.run.isNone && t.mstl.isNone && t.mat.isEmpty && t.mv.isEmpty && t.amo.isEmpty && t.tags.all Option.isNone

/-- Start the staged item when its BOUND fits; else it goes back to its segment (R132). It waits until the units are idle (R166). -/
def State.nextStaged (s : State) (n : StallId) (t : TileId) : State :=
  match (s.tiles[t]).staged, s.tileSlot t with
  | some i, some e =>
    if (s.tiles[t]).quar ≠ .none then s.unstage n t
    else if !(s.tiles[t]).idle then s
    else if (s.serving[n]).bound i.handle ≤ s.cclkLeft (s.slotEnd e) then (s.modTile t fun tl => { tl with staged := none }).startItem n t i
    else s.unstage n t
  | _, _ => s.unstage n t
/-- An operation of the tile has completed: once its units are idle, the item that waited for them starts. -/
def State.unitsDone (s : State) (t : TileId) : State :=
  match (s.tiles[t]).owner with
  | some n => if (s.tiles[t]).staged.isSome && (s.tiles[t]).idle then s.nextStaged n t else s
  | none => s

/-- Kernel and batch are done with: freed translations, the batch's end, the staged item. -/
def State.afterKernel (s : State) (t : TileId) (r : Running) : State :=
  let n := r.stall
  let s := s.leaveKernel t r
  ((s.batchCheck n r.item.batch).freeUnloaded n).nextStaged n t

/-- `end`: the kernel is done (R165). -/
def State.kernelEnd (s : State) (t : TileId) : State :=
  match (s.tiles[t]).run with
  | some r => s.afterKernel t r
  | none => s

/-- The TIL record of a fault or an overrun (Table 5.9): cause, OVC, trap code. -/
def State.loadTil (s : State) (t : TileId) (r : Running) (cause ovc : Nat) (code : BitVec 16) : State :=
  s.modTile t fun tl => { tl with fInfo := BitVec.ofNat 32 (cause + ovc * 2 ^ 10 + r.stall.val * 2 ^ 12 + code.toNat * 2 ^ 16), fPc := BitVec.ofNat 32 tl.pc,
                                  fKh := r.item.handle.setWidth 32, fBatch := BitVec.ofNat 32 r.item.batch }

def Cause.number : Cause → Nat
  | .tsRange => 1 | .align => 2 | .gaddr => 3 | .poison => 4 | .trap => 5 | .operand => 6

/-- A run-time fault ends the kernel and its batch without retry; cause POISON completes with POISON, every other with KERNEL_FAULT (R107, R136, R442). -/
def State.kernelFault (s : State) (t : TileId) (c : Cause) (code : BitVec 16) : State :=
  match (s.tiles[t]).run with
  | some r =>
    let f : Failure := { status := if c = .poison then .poison else .kernelFault, fault := BitVec.ofNat 32 (c.number + code.toNat * 2 ^ 16), kh := r.item.handle,
                         pc := BitVec.ofNat 32 (s.tiles[t]).pc }
    let s := ((s.loadTil t r c.number 0 code).raise (.til t) 0x1).count (some r.stall) 0x023 1
    (s.endBatch r.stall r.item.batch (.fault f)).afterKernel t r
  | none => s

/-- A kernel stopped with OVERRUN; OVC 1 BOUND, 2 SLOT_END (R109, R134, R138). -/
def State.kernelOverrun (s : State) (t : TileId) (ovc : Nat) : State :=
  match (s.tiles[t]).run with
  | some r =>
    let f : Failure := { status := .overrun, fault := BitVec.ofNat 32 (0x10 + ovc * 2 ^ 8), kh := r.item.handle, pc := BitVec.ofNat 32 (s.tiles[t]).pc }
    let s := (((s.cutKernel t).loadTil t r 0x10 ovc 0).raise (.til t) 0x2).count (some r.stall) 0x022 1
    (s.endBatch r.stall r.item.batch (.overrun f)).afterKernel t r
  | none => s

/-- A side list overflows: the kernel stops, nothing is loaded into the TIL block (R181, R182). When the kernel has stopped before, the overflow is counted all the
same, and ends the batch where that is not over (R184). -/
def State.sideOverflow (s : State) (t : TileId) : State :=
  let f := fun (r : Running) => BatchEnd.overflow { status := .sideOverflow, kh := r.item.handle, pc := BitVec.ofNat 32 (s.tiles[t]).pc }
  match (s.tiles[t]).run, (s.tiles[t]).last with
  | some r, _ => (((s.cutKernel t).count (some r.stall) 0x024 1).endBatch r.stall r.item.batch (f r)).afterKernel t r
  | none, some r => (((s.count (some r.stall) 0x024 1).endBatch r.stall r.item.batch (f r)).batchCheck r.stall r.item.batch).freeUnloaded r.stall
  | none, none => s

/-- Does the batch of a running kernel accept spawns: not being ended, and serving a request that has not been cancelled (R102)? -/
def Serving.spawnDrops (v : Serving) (num : Nat) : Bool :=
  match v.batch? num with
  | some b => b.ending.isSome || v.allCancelled b
  | none => true

end Sys2Proof.Machine
end

