-- ==== Sys2Proof/Machine/PowerOps.lean ====
section
/-! DEFINITION. The power stage's own work: samples, the clock, the bank and the telemetry snapshot (R418–R422, R430, R435, R493). -/
namespace Sys2Proof.Machine

/-! ### Bits of PWR_STATUS (Table 17.5) -/
def pwLoss : BitVec 24 := 0x1
def pwReturn : BitVec 24 := 0x2
def pwSag : BitVec 24 := 0x4
def pwSurge : BitVec 24 := 0x8
def pwRipple : BitVec 24 := 0x10
def pwLimit : BitVec 24 := 0x20
def pwFast : BitVec 24 := 0x40
def pwTherm : BitVec 24 := 0x80
def pwBankLow : BitVec 24 := 0x100
def pwHoldup : BitVec 24 := 0x200
def pwTrip : BitVec 24 := 0x400
def pwRail : BitVec 24 := 0x800

/-- A value held within a range (R437). -/
def clampTo (lo hi x : Nat) : Nat := max lo (min hi x)
def State.limitW (s : State) : Nat := (s.reg .pwr 0x004).toNat % 4096
/-- PWR_CLKCFG.FLOOR in effect. DESIGN CHOICE: the register stores and reads the value as it acts within its range, and only its effect is rounded down to 25 MHz (log 92). -/
def State.clkFloor (s : State) : Nat := clampTo 650 1300 ((s.reg .pwr 0x00C).toNat % 2048) / 25 * 25

/-- WARN and TRIP of sensor group `g` (Table 17.3, PWR_TWARN). -/
def State.warnOf (s : State) (g : Nat) : Nat :=
  let t := s.reg .pwr 0x014
  if g < 8 then t.toNat % 256 else if g < 28 then t.toNat / 2 ^ 8 % 256 else if g < 44 then t.toNat / 2 ^ 16 % 256 else if g < 52 then t.toNat / 2 ^ 24
  else if g = 52 then 45 else 60
def tripOf (g : Nat) : Nat := if g < 8 then 110 else if g < 28 then 95 else if g < 44 then 85 else if g < 52 then 80 else if g = 52 then 55 else 70
/-- Is group `g`, at a temperature in two's complement, above its WARN value? -/
def State.overWarn (s : State) (t : Vector (BitVec 8) 54) (g : Fin 54) : Bool := decide ((s.warnOf g : Int) < (t[g]).toInt)
def State.anyWarn (s : State) : Bool := (List.finRange 54).any fun g => s.overWarn s.power.temps g

/-- The energy of the bank between 36.0 V and 72.0 V, in 0.1 mJ, for a capacitance in 0.1 mF (R420). -/
def bankEnergy (c : Nat) : Nat := 1944 * c
/-- The integer square root, rounded up. -/
def sqrtUp (x : Nat) : Nat := let r := Nat.sqrt x; if r * r = x then r else r + 1
/-- V_RES in 10 mV: ½ × C × (V_RES² − 36.0²) = 20 J, rounded up (R420). -/
def vresOf (c : Nat) : Nat := if c = 0 then 0xFFFF else min 0xFFFF (sqrtUp (12960000 + (4000000000 + c - 1) / c))
/-- The write-buffer cap of R422, in bytes; none where a full bank holds the reserve. -/
def capOf (c : Nat) : Option Nat := if 200000 ≤ bankEnergy c then none else some (8000000000 * (bankEnergy c - 5400) / 4200000)
/-- The ride-through window at 2,700 W in µs (R426). -/
def Power.window (p : Power) : Nat := p.bankC.toNat * (p.bankV.toNat ^ 2 - p.vres.toNat ^ 2) / 540000

/-- Readings of the sensors and rails, by index; those the sample does not carry stay. -/
def readings {k : Nat} (old : Vector (BitVec 8) k) (l : List (BitVec 8)) : Vector (BitVec 8) k := Vector.ofFn fun i => l.getD i.val old[i]
def readings16 {k : Nat} (old : Vector (BitVec 16) k) (l : List (BitVec 16)) : Vector (BitVec 16) k := Vector.ofFn fun i => l.getD i.val old[i]
def hotter (a b : BitVec 8) : BitVec 8 := if a.toInt < b.toInt then b else a

/-- What a sample loads: the input, the bank, temperatures with their maxima, and the rails. -/
def Power.load (p : Power) (x : Sample) : Power :=
  let temps := readings p.temps x.temps
  { p with vin := x.vin, iin := x.iin, pinMs := x.pinMs, bankV := x.bankV, energy := p.energy + BitVec.ofNat 64 x.energy, temps,
           tmax := Vector.ofFn fun i => hotter p.tmax[i] temps[i], hot := p.hot || (temps.toList.take 4).any fun t => decide (85 < t.toInt), mv := readings16 p.mv (x.rails.map (·.1)), amps := readings16 p.amps (x.rails.map (·.2)) }

/-- THERMAL records where a group's WARN begins or ends (Table 20.7). -/
def State.logWarn (s : State) (old : Vector (BitVec 8) 54) : State :=
  (List.finRange 54).foldl (fun s g =>
    let a := s.overWarn old g
    let b := s.overWarn s.power.temps g
    if a = b then s else s.log 7 ([if b then 0 else 1, BitVec.ofNat 8 g.val, s.power.temps[g]] : List Byte)) s

/-- A sample at a boundary or in standby: the readings, the warnings that begin or end. -/
def State.sample (s : State) (x : Sample) : State :=
  let old := s.power.temps
  let s := (s.modPower fun p => p.load x).logWarn old
  s.modPower fun p => { p with pmTemp := p.pmTemp || s.anyWarn }

/-- The frequency of the Churn that begins (R430): `p` is the mean input power of the Churn that ended. -/
def nextClock (f p limit floor : Nat) : Nat :=
  if limit < p then max (f * limit / p / 25 * 25) floor
  else if p * 100 < limit * 97 ∧ f < 1300 then f + 25 else f

/-- CCLK at a boundary (R430, R435), with its events. -/
def State.selectClock (s : State) (p : Nat) : State :=
  let f := s.clk
  let f1 := nextClock f p s.limitW s.clkFloor
  let s := if f1 < f then s.raise .pwr pwLimit else s
  let warm := s.anyWarn
  let f2 := if warm then max 650 (f1 - 25) else f1
  let s := if warm then s.raise .pwr pwTherm else s
  let s := if f2 < 1300 then s.count none 0x301 1 else s
  s.setClock f2

/-- The power stage's part of a Churn boundary (R418, R430, R435). -/
def State.powerBoundary (s : State) (x : Sample) : State :=
  let s := s.sample x
  let s := s.modPower fun p => { p with vmin := x.vmin, vmax := x.vmax, pinChurn := x.pin, ripple := BitVec.ofNat 16 (min 0xFFFF x.ripple.toNat) }
  let s := if 2000 < x.ripple.toNat then (s.raise .pwr pwRipple).count none 0x302 1 else s
  s.selectClock x.pin.toNat

/-! ### Bank and pins as registers (Table 17.5) -/

def Power.bankReg (p : Power) : Word := p.bankC ++ p.bankV
def Power.bankeReg (p : Power) : Word := p.vres ++ BitVec.ofNat 16 (min 0xFFFF p.window)
def Power.pinReg (p : Power) : Word := p.pinChurn ++ p.pinMs

/-! ### The telemetry snapshot (Table 20.8) -/

def hottest (l : List (BitVec 8)) : BitVec 8 := match l with | [] => 0 | t :: ts => ts.foldl hotter t
def Power.groupMax (p : Power) (lo n : Nat) : BitVec 8 := hottest ((p.temps.toList.drop lo).take n)
def word4 (a b c d : BitVec 8) : Word := d ++ c ++ b ++ a
def maskOf (k : Nat) (p : Nat → Bool) : Word := BitVec.ofNat 32 ((List.range k).map fun i => if p i then 2 ^ i else 0).sum
def State.portMask (s : State) (p : Port → Bool) : Word := maskOf 32 fun i => match s.fabric.ports[i]? with | some x => p x | none => false
/-- A port runs below the widest width that it and its peer allow. -/
def Port.narrowed (p : Port) : Bool := decide (p.st = .active) && decide (p.width < 8)
def Quar.held : Quar → Bool
  | .quar _ => true
  | .selftest _ => true
  | .passed _ => true
  | _ => false

/-- FTL_LIFE.USED: the mean erase count of the most-worn die pair as a percentage of 3,000, at most 255; a die pair has about 636,000 blocks (Table 14.5, log 52). -/
def FlashSt.used (x : FlashSt) : Nat :=
  let die := fun (d : Nat) => ((x.erases.filter fun e => e.1 / 2 ^ 20 = d).map (·.2)).sum * 100 / (3000 * 636000)
  min 255 (max (max (die 0) (die 1)) (max (die 2) (die 3)))
def lo32 (x : BitVec 64) : Word := x.setWidth 32
def hi32 (x : BitVec 64) : Word := (x >>> 32).setWidth 32

/-- Word 14 names five bytes for its four: how it holds them is open (log 53). -/
def State.snapshot (s : State) : List Word :=
  let p := s.power
  let t := fun i => p.temps.toList.getD i 0
  [lo32 s.churn.num, hi32 s.churn.num, lo32 s.rtcNow, hi32 s.rtcNow, p.vin.setWidth 32, p.iin.setWidth 32, p.pinReg, BitVec.ofNat 32 s.clk, p.bankReg, p.bankeReg,
   s.statWord .pwr, s.statWord .ras, word4 (t 0) (t 1) (t 2) (t 3), word4 (t 4) (t 5) (t 6) (t 7),
   BitVec.ofNat 32 s.free] ++ List.replicate 5 (0 : Word) ++
  [maskOf 16 fun i => match s.stalls[i]? with | some x => decide (x.state = .fresh) | none => false, s.portMask fun x => decide (x.st = .active),
   s.portMask Port.narrowed, BitVec.ofNat 32 (allTiles.countP fun t => (s.tiles[t]).quar.held), BitVec.ofNat 32 s.flashFree, BitVec.ofNat 32 s.mem.flash.used,
   s.ras.retired.setWidth 32, BitVec.ofNat 32 s.ras.pending.length, lo32 s.ras.ce, hi32 s.ras.ce, lo32 s.ras.ue, hi32 s.ras.ue] ++ List.replicate 32 (0 : Word)
def State.telemeter (s : State) : State := s.useFree.modMgt fun m => { m with telem := s.snapshot }

end Sys2Proof.Machine
end

