-- ==== Sys2Proof/Machine/Packets.lean ====
section
/-! DEFINITION. Packets (R376), ports (R363–R371), routes, policers, shapers and gates (R372–R391). -/
namespace Sys2Proof.Machine

/-! ### Packets -/

def Packet.field (p : Packet) (o n : Nat) : Nat := p.hdr.toNat / 2 ^ (8 * o) % 2 ^ (8 * n)
def Packet.setField (p : Packet) (o n v : Nat) : Packet :=
  { p with hdr := BitVec.ofNat 256 (p.hdr.toNat - p.field o n * 2 ^ (8 * o) + v % 2 ^ (8 * n) * 2 ^ (8 * o)) }
def Packet.ty (p : Packet) : Nat := p.field 0 1
def Packet.cls (p : Packet) : Nat := p.field 1 1 % 32
def Packet.yellow (p : Packet) : Bool := decide (p.field 1 1 / 32 % 4 = 1)
def Packet.dst (p : Packet) : Nat := p.field 2 1
def Packet.src (p : Packet) : Nat := p.field 3 1
def Packet.dstStall (p : Packet) : StallId := Fin.ofNat 16 (p.field 4 1 % 16)
def Packet.srcStall (p : Packet) : StallId := Fin.ofNat 16 (p.field 4 1 / 16)
def Packet.hops (p : Packet) : Nat := p.field 5 1
def Packet.plen (p : Packet) : Nat := p.field 6 1
def Packet.status (p : Packet) : Nat := p.field 7 1
def Packet.tid (p : Packet) : Nat := p.field 8 2
def Packet.target (p : Packet) : Nat := p.field 0x0A 1
def Packet.nblk (p : Packet) : Nat := p.field 0x0B 1
def Packet.aux (p : Packet) : Nat := p.field 0x0C 4
def Packet.offset (p : Packet) : Nat := p.field 0x10 8
/-- Responses have TYPE 0x81 and above (Table 15.6). -/
def Packet.response (p : Packet) : Bool := decide (0x80 < p.ty)
/-- Bytes on the wire: the header and PLEN slots. -/
def Packet.bytes (p : Packet) : Nat := 32 * (1 + p.plen)
/-- Units of 256 bytes that a packet takes of a share (R371). -/
def Packet.units (p : Packet) : Nat := (p.bytes + 255) / 256

/-- Reverse the bits of a byte or a word. -/
def bitRev {w : Nat} (x : BitVec w) : BitVec w := x.reverse
/-- One byte of a CRC with polynomial 0x04C1_1DB7, most significant bit first. -/
def crcByte (c : BitVec 32) (b : Byte) : BitVec 32 :=
  (List.range 8).foldl (fun c _ => if c.getLsbD 31 then (c <<< 1) ^^^ 0x04C11DB7 else c <<< 1) (c ^^^ ((b.setWidth 32) <<< 24))
/-- ECRC of some bytes; its open conventions are constants of Config (log 43). -/
def ecrcOf (l : List Byte) : BitVec 32 :=
  let c := l.foldl (fun c b => crcByte c (if Config.ecrcMsb then b else bitRev b)) Config.ecrcStart
  (if Config.ecrcMsb then c else bitRev c) ^^^ Config.ecrcEnd
/-- The bytes that ECRC covers: the header with ECRC zero, and the payload. -/
def Packet.covered (p : Packet) : List Byte := toBytesLE 28 p.hdr.toNat ++ List.replicate 4 0 ++ p.pay
def Packet.ecrc (p : Packet) : BitVec 32 := ecrcOf p.covered
def Packet.seal (p : Packet) : Packet := p.setField 0x1C 4 p.ecrc.toNat
def Packet.ecrcOk (p : Packet) : Bool := decide (p.field 0x1C 4 = p.ecrc.toNat)
/-- A switch changes a header field without checking ECRC: the field moves by the same difference, so that a damaged packet stays damaged (R377, log 44). -/
def Packet.rewrite (p : Packet) (o n v : Nat) : Packet :=
  let q := p.setField o n v
  q.setField 0x1C 4 ((BitVec.ofNat 32 (p.field 0x1C 4)) ^^^ p.ecrc ^^^ q.ecrc).toNat

/-- A header (Table 15.5) with ECRC zero. -/
def mkHeader (ty cls dst src stalls hops plen status tid target nblk aux offset : Nat) : BitVec 256 :=
  BitVec.ofNat 256 (ofBytesLE (toBytesLE 1 ty ++ toBytesLE 1 cls ++ toBytesLE 1 dst ++ toBytesLE 1 src ++ toBytesLE 1 stalls ++ toBytesLE 1 hops ++ toBytesLE 1 plen ++
    toBytesLE 1 status ++ toBytesLE 2 tid ++ toBytesLE 1 target ++ toBytesLE 1 nblk ++ toBytesLE 4 aux ++ toBytesLE 8 offset))

/-- The slots of a packet (R376): a poisoned payload block marks both its slots. -/
def Packet.slots (p : Packet) : List Slot :=
  ⟨p.hdr, false⟩ :: (List.range p.plen).map fun i => ⟨BitVec.ofNat 256 (ofBytesLE ((p.pay.drop (32 * i)).take 32)), p.marks.getD (i / 2) false⟩
def idleSlot : Slot := ⟨0, false⟩
/-- A packet of its slots. -/
def packetOf (h : Slot) (l : List Slot) : Packet :=
  { hdr := h.data, pay := l.flatMap fun x => toBytesLE 32 x.data.toNat, marks := (List.range ((l.length + 1) / 2)).map fun i => ((l.drop (2 * i)).take 2).any (·.mark) }
/-- PLEN of a header slot, 0–8. -/
def slotPlen (x : Slot) : Nat := min 8 (x.data.toNat / 2 ^ 48 % 256)

/-- Take whole packets from a stream of slots: the packets, and the slots of one that is not whole. A slot whose first byte is 0 is idle. -/
def parseSlots : Nat → List Slot → List Packet × List Slot
  | 0, l => ([], l)
  | _ + 1, [] => ([], [])
  | k + 1, h :: rest =>
    if h.data.toNat % 256 = 0 then parseSlots k rest
    else if rest.length < slotPlen h then ([], h :: rest)
    else
      let r := parseSlots k (rest.drop (slotPlen h))
      (packetOf h (rest.take (slotPlen h)) :: r.1, r.2)

/-! ### Ports -/

def State.modPort (s : State) (p : PortId) (g : Port → Port) : State := s.modFabric fun x => { x with ports := x.ports.set p (g x.ports[p]) }
def State.port (s : State) (p : PortId) : Port := s.fabric.ports[p]
def Port.active (x : Port) : Bool := decide (x.st = .active)
def portEngine (p : PortId) : Fin 8 := Fin.ofNat 8 (p.val / 4)
def portDie (p : PortId) : Die := Fin.ofNat 4 (p.val / 8)
def State.portEn (s : State) (p : PortId) : Bool := (s.reg (.fab p) 0x000).getLsbD 0
def State.lasersOk (s : State) (p : PortId) : Bool := s.fabric.laserOk[portEngine p]

/-- A laser bank is lit while it works and a port of its engine is not DISABLED (Table 15.2). -/
def Fabric.lit (x : Fabric) (e : Fin 8) : Bool := x.laserOk[e] && (List.range 4).any fun i => decide ((x.ports[(Fin.ofNat 32 (e.val * 4 + i) : PortId)]).st ≠ .disabled)
/-- The time for which each bank has been lit until now, and since when it is. -/
def State.relight (s : State) : State :=
  s.modMgt fun m =>
    { m with laserSum := Vector.ofFn fun e => m.laserSum[e] + (match m.litAt[e] with | some t => s.now - t | none => 0)
             litAt := Vector.ofFn fun e => if s.fabric.lit e then some s.now else none }

/-- Width and active groups of a port (R364): the widest that both ends allow with the groups usable. -/
def chooseWidth (faults : BitVec 8) (allowed : BitVec 3) : Nat × List Nat :=
  let ok := fun g => !faults.getLsbD (2 * g) && !faults.getLsbD (2 * g + 1)
  if allowed.getLsbD 0 && ok 0 && ok 1 && ok 2 && ok 3 then (8, [0, 1, 2, 3])
  else if allowed.getLsbD 1 && ok 0 && ok 1 then (4, [0, 1])
  else if allowed.getLsbD 1 && ok 2 && ok 3 then (4, [2, 3])
  else if allowed.getLsbD 2 then (match [0, 1, 2, 3].find? ok with | some g => (2, [g]) | none => (0, []))
  else (0, [])

/-- FAB_RXSHARE of class `c` in 1/64 of 1 MiB. -/
def State.rxShare (s : State) (p : PortId) (c : Nat) : Nat := (s.reg (.fab p) (0x40 + c / 4 * 4)).toNat / 2 ^ (8 * (c % 4)) % 256
/-- Units of 256 bytes in a share. -/
def shareUnits (x : Nat) : Nat := x * 64

/-! ### Classes (R383) -/

def State.stallClass (s : State) (n : StallId) : Nat := (s.reg .trf (0x40 + 4 * n.val)).toNat % 16
/-- Whom a class is counted for: the Stalls that carry it, or the provider. -/
def State.classOwners (s : State) (c : Nat) : List (Option StallId) := if c = 16 then [none] else (allStalls.filter fun n => s.stallClass n = c).map some
def State.countClass (s : State) (c code w : Nat) : State := (s.classOwners c).foldl (fun s o => s.count o code w) s

/-! ### Routes (R373) -/

/-- The port and the alternate of the route to a module; none where the entry is not valid. -/
def State.route (s : State) (m : Nat) : Option (PortId × Option PortId) :=
  let r := s.reg .trf (0x400 + 4 * m)
  if r.getLsbD 31 then some (Fin.ofNat 32 r.toNat, if r.getLsbD 13 then some (Fin.ofNat 32 (r.toNat / 2 ^ 8)) else none) else none
def State.noRoute (s : State) : State := (s.raise .trf 0x1).count none 0x323 1
/-- The output port of a packet to another module: PORT when ACTIVE, else ALT when ACTIVE. -/
def State.outPort (s : State) (m : Nat) : Option PortId :=
  match s.route m with
  | some (p, a) => if (s.port p).active then some p else match a with
    | some q => if (s.port q).active then some q else none
    | none => none
  | none => none

/-! ### Output queues (R375) -/

def Port.queue (x : Port) (c : Nat) : List Packet := mapGet [] x.outQ c
def Port.setQueue (x : Port) (c : Nat) (l : List Packet) : Port := { x with outQ := mapSet [] x.outQ c l }
def queueBytes (l : List Packet) : Nat := (l.map Packet.bytes).sum
def Port.push (x : Port) (k : Packet) : Port := x.setQueue k.cls (x.queue k.cls ++ [k])

def satAdd16 (x : BitVec 16) : BitVec 16 := if x = 0xFFFF then x else x + 1
/-- The output queue takes a packet, drops a yellow request above 16 KiB, or lets it wait (R375, R386). -/
inductive QueueSay where
  | take | dropYellow | wait
deriving DecidableEq, Repr
def State.queueSay (s : State) (q : PortId) (k : Packet) : QueueSay :=
  let held := queueBytes ((s.port q).queue k.cls)
  if k.yellow && !k.response && decide (16384 < held) then .dropYellow else if 32768 < held + k.bytes then .wait else .take
/-- A yellow request is dropped at an output queue (R386). -/
def State.yellowDrop (s : State) (q : PortId) (k : Packet) : State :=
  ((s.modPort q fun x => { x with yel := mapSet 0 x.yel k.cls (satAdd16 (mapGet 0 x.yel k.cls)) }).raise .trf 0x8).countClass k.cls 0x084 1

/-- A port leaves ACTIVE, or is stopped: unacknowledged flits are lost; its queued packets go to the route's alternate port or are dropped (R368). -/
def State.portStop (s : State) (p : PortId) (st : PortState) : State :=
  let x := s.port p
  let ks := x.outQ.flatMap (·.2)
  let s := s.modPort p fun x =>
    { x with st, width := 0, groups := [], peer := none, replay := [], stream := [], partial_ := [], outQ := [], marks := [], credit := [], owe := [], nakDue := false, nakRun := 0, txSeq := 0,
             rxLast := 0xFFF, rxHold := [], errs := [], pass := 0, last := none, stAt := s.now }
  let s := if x.active && decide (st = .down) then s.raise (.fab p) 0x2 else s
  ks.foldl (fun s k =>
    match s.route k.dst with
    | some (_, some a) =>
      if !(s.port a).active then s.noRoute
      else match s.queueSay a k with
        | .take => s.modPort a fun y => y.push k
        | .dropYellow => s.yellowDrop a k
        -- A full queue takes it later: it waits among the slice's own packets (R375, log 82).
        | .wait => s.modFabric fun x => { x with inject := mapSet [] x.inject (portDie p).val (mapGet [] x.inject (portDie p).val ++ [k]) }
    | _ => s.noRoute) s

/-! ### Policers (R385–R387): buckets in 1/88 byte, which 100 Mb/s fills at one a BCLK -/

def bucketUnit : Nat := 88
def kibUnits (k : Nat) : Nat := k * 1024 * bucketUnit
def polOff (p : PortId) (c : Nat) : Nat := 0x1000 + (32 * p.val + c) * 0x10

inductive Colour where
  | green | yellow | red
deriving DecidableEq, Repr

/-- The two-rate three-colour marker: the colour, and the buckets after it. `aware`: the packet arrived yellow and the policer sees it. -/
def marker (committed peak size : Nat) (aware : Bool) : Colour × Nat × Nat :=
  if peak < size then (.red, committed, peak)
  else if aware || decide (committed < size) then (.yellow, committed, peak - size)
  else (.green, committed - size, peak - size)

/-- The policer of a port and class on a request: colour and the port after it. -/
def State.police (s : State) (p : PortId) (k : Packet) : Colour × Port :=
  let x := s.port p
  let c := k.cls
  let mode := (s.reg .trf (polOff p c)).toNat % 4
  if k.response || mode = 0 || mode = 3 then (if k.yellow then .yellow else .green, x)
  else
    let ci := s.reg .trf (polOff p c + 4)
    let pi := s.reg .trf (polOff p c + 8)
    let cbs := kibUnits (ci.toNat / 2 ^ 16)
    let pbs := kibUnits (pi.toNat / 2 ^ 16)
    let b := match mapGet none x.pol c with
      | some (a, d, t) => (min cbs (a + (s.now - t) * (ci.toNat % 2 ^ 16)), min pbs (d + (s.now - t) * (pi.toNat % 2 ^ 16)))
      | none => (cbs, pbs)
    let m := marker b.1 b.2 (k.bytes * bucketUnit) (k.yellow && mode = 2)
    (m.1, { x with pol := mapSet none x.pol c (some (m.2.1, m.2.2, s.now)) })

/-! ### Shapers (R388) and gates (R389, R390) -/

/-- Tokens of a shaper; none where it does not limit. -/
def State.shaperTokens (s : State) (p : PortId) (c : Nat) : Option Nat :=
  let r := s.reg .trf (0x5000 + (32 * p.val + c) * 8)
  if r.toNat % 2 ^ 16 = 0 then none
  else
    let cap := kibUnits (r.toNat / 2 ^ 16)
    match mapGet none (s.port p).shp c with
    | some (a, t) => some (min cap (a + (s.now - t) * (r.toNat % 2 ^ 16)))
    | none => some cap
def State.weight (s : State) (p : PortId) (c : Nat) : Nat := (s.reg .trf (0x5004 + (32 * p.val + c) * 8)).toNat % 64

def State.gateReg (s : State) (p : PortId) (e : Nat) : Word := if e < 31 then s.reg .trf (0x7000 + p.val * 0x80 + 4 * e) else 0
/-- DUR in BCLK: 100 ns is 110 BCLK. -/
def State.gateDur (s : State) (p : PortId) (e : Nat) : Nat := (s.gateReg p e).toNat / 2 ^ 17 * 110
/-- GUARD in BCLK: 10 ns is 11 BCLK; values below 6 act as 6. -/
def State.guardBclk (s : State) (p : PortId) : Nat := max 6 ((s.reg .trf (0x7000 + p.val * 0x80 + 0x7C)).toNat % 256) * 11
/-- The entry after the one in force: the list ends at the first entry with DUR = 0, and then repeats. -/
def State.gateNext (s : State) (p : PortId) : Nat := if s.gateDur p ((s.port p).gate + 1) = 0 then 0 else (s.port p).gate + 1

/-- What a Churn boundary restarts on the ports (R387, R388, R391). -/
def State.fabricBoundary (s : State) : State :=
  s.modFabric fun x => { x with ports := x.ports.map fun y => { y with pol := [], shp := [], gate := 0, gateAt := s.now } }
/-- MARK packets enter the queue of class 16 while its 32 KiB hold them (R375). -/
def Port.pushMarks (x : Port) : Port :=
  x.marks.foldl (fun y k => if queueBytes (y.queue 16) + k.bytes ≤ 32768 then ({ y with marks := y.marks.drop 1 } : Port).push k else y) x
/-- The MARK packet of a boundary, on every ACTIVE port (R392). -/
def State.markPacket (s : State) : Packet :=
  let id := (s.reg .trf 0x008).toNat % 256
  Packet.seal { hdr := mkHeader 0x10 16 0 id 0 0 1 0 0 0 0 0 0, pay := toBytesLE 32 s.churn.num.toNat, marks := [false] }
def State.sendMarks (s : State) : State :=
  let k := s.markPacket
  s.modFabric fun x => { x with ports := x.ports.map fun y => if y.active then ({ y with marks := y.marks ++ [k] } : Port).pushMarks else y }

end Sys2Proof.Machine
end

