-- ==== Sys2Proof/Machine/CmdServing.lean ====
section
/-! DEFINITION. What the serving commands of the rings do when they start (ch. 12). -/
namespace Sys2Proof.Machine

def Cmd.u (c : Cmd) (o n : Nat) : Nat := Desc.field c.d o n
/-- A 48-bit global address: bits [63:48] must be zero. -/
def addrOk (a : Nat) : Bool := decide (a < 2 ^ 48)
def roundUp (k n : Nat) : Nat := (n + k - 1) / k * k

/-- A buffer list (ch. 12): address and length of each entry; none where a reserved byte is not zero. -/
def State.bufList (s : State) (f : Fn) (a n : Nat) : Option (List (Nat × Nat)) :=
  (List.range n).mapM fun i =>
    let e := s.readMem f (a + 16 * i) 16
    if bytesZero e 12 4 && addrOk (bytesField e 0 8) then some (bytesField e 0 8, bytesField e 8 4) else none

/-- The retirement of an object is pending: its users are admitted no longer (R291). -/
def Serving.retiring (v : Serving) (op kind h : Nat) : Bool :=
  v.retires.any fun c => c.op = op && (if op = 0x34 then c.u 0x10 4 = kind && c.u 0x14 4 = h else c.u 0x10 4 = h)

/-- May a program's requests be admitted: the program is bound, and nothing it binds is being or has been retired. -/
def Serving.progOpen (v : Serving) (p : Nat) : Bool :=
  match v.program? p with
  | some r =>
    let b := r.bytes
    !r.closed && !v.retiring 0x11 0 p && !v.retiring 0x34 0 (bytesField b 0 1) && !v.retiring 0x34 1 (bytesField b 1 1) && !v.retiring 0x34 2 (bytesField b 2 1) &&
      !v.retiring 0x13 0 (bytesField b 6 2)
  | none => false

/-- The slot size of a grammar's masks (ch. 11): ⌈NTOK / 8⌉ rounded up to 64 bytes. -/
def maskBytes (ntok : Nat) : Nat := roundUp 64 ((ntok + 7) / 8)
def Serving.vocab? (v : Serving) (h : Nat) : Option Vocab := v.keep.vocabs.find? fun x => x.handle = h && x.ready
def Serving.grammar? (v : Serving) (h : Nat) : Option Grammar := v.keep.grammars.find? fun x => x.handle = h
def Serving.template? (v : Serving) (h : Nat) : Option Template := v.keep.templates.find? fun x => x.handle = h
def Serving.ntok (v : Serving) (h : Nat) : Nat := match v.vocab? h with | some x => x.toks.length | none => 0

/-- STL_SEQMAX: 0 acts as 1, values above 4,096 as 4,096. -/
def State.seqMax (s : State) (n : StallId) : Nat := max 1 (min 4096 ((s.reg (.stl n) 0x54).toNat % 8192))
def Serving.clientMax (v : Serving) (c : Nat) : Nat := match v.keep.clients.find? (fun x => x.id = c) with | some x => x.maxSeq | none => 4096
def Serving.seqUsed (v : Serving) (i : Nat) : Bool := v.requests.any fun q => q.seq = i
/-- The lowest free SEQ_ID (R299). -/
def Serving.freeSeq (v : Serving) : Nat := ((List.range 4096).find? fun i => !v.seqUsed i).getD 0

/-- The adapter that a request uses and its pinned version: `none` where the request names one that is not loaded for its program's model (R297, R316). -/
def Serving.pinAdapter (v : Serving) (field dflt model : Nat) : Option (Option (Nat × Nat)) :=
  let a := if field = 0xFFFF then dflt else field
  if a = 0xFFFE then some none
  else match v.keep.adapters.find? (fun x => x.id = a && x.model = model) with
    | some x => if x.ver ≠ 0 ∧ x.bytes ≠ 0 then some (some (a, x.ver)) else none
    | none => none

/-- Check 2 of R299: what makes a REQUEST complete with BAD_DESC. -/
def State.requestBad (s : State) (n : StallId) (c : Cmd) : Bool :=
  let v := s.serving[n]
  let f := vfOf n
  let p := c.u 0x10 1
  let work := c.u 0x20 8
  let wb := c.u 0x28 4
  let cap := c.u 0x2C 4
  let maxNew := c.u 0x3C 4
  let tokOut := c.u 0x40 8
  let mask := c.u 0x48 8
  let nbuf := c.u 0x16 2
  let sample := c.u 0x11 1 % 2 = 1
  match v.program? p with
  | none => true
  | some r =>
    let g := bytesField r.bytes 1 1
    let filt := if c.u 0x50 8 = 0 then bytesField r.bytes 0x18 8 else c.u 0x50 8
    let new := if maxNew = 0 then bytesField r.bytes 0x0C 4 else maxNew
    !v.progOpen p || (v.req? c.tag).isSome || decide (1 < c.u 0x11 1) || decide (4095 < c.u 0x12 2) || (v.pinAdapter (c.u 0x14 2) (bytesField r.bytes 8 2) (bytesField r.bytes 6 2)).isNone ||
    decide (nbuf = 0 ∨ 16 < nbuf) || decide (work % 4096 ≠ 0) || decide (cap = 0 ∨ 131072 < cap) || decide (wb < 64 + roundUp 64 (cap * 4)) || decide (131072 < maxNew) ||
    (decide sample && decide (1024 < c.u 0x5C 2)) || decide (filt % 16 ≠ 0) ||
    !(addrOk work && addrOk (c.u 0x18 8) && addrOk (c.u 0x30 8) && addrOk tokOut && addrOk mask && addrOk filt) ||
    !s.writable f work wb || !s.covered f (c.u 0x18 8) (nbuf * 16) || !s.writable f (c.u 0x30 8) (c.u 0x38 4) ||
    (decide (tokOut ≠ 0) && !s.writable f tokOut (4 * new)) ||
    (decide (g ≠ 0xFF) && (decide (mask = 0) || !s.writable f mask (maskBytes (v.ntok (bytesField r.bytes 0 1))))) || (decide (filt ≠ 0) && !s.covered f filt 80) ||
    (match s.bufList f (c.u 0x18 8) nbuf with
     | some l => l.any fun (a, k) => !s.covered f a k
     | none => true)

/-- The bytes of a request header (Table 12.4). -/
def headerBytes (q : Request) (churn : Nat) : List Byte :=
  toBytesLE 4 q.tag.toNat ++ toBytesLE 2 q.seq ++ toBytesLE 1 q.program ++ ([0] : List Byte) ++ toBytesLE 2 q.client ++
    toBytesLE 2 (match q.adapter with | some (a, _) => a | none => 0xFFFF) ++ toBytesLE 4 (match q.adapter with | some (_, x) => x | none => 0) ++
    toBytesLE 8 churn ++ toBytesLE 8 q.filter ++ List.replicate 32 0

/-- REQUEST (R297–R299): the first check that fails ends it; otherwise it is admitted. -/
def State.startRequest (s : State) (n : StallId) (c : Cmd) : State :=
  let v := s.serving[n]
  if s.requestBad n c then s.finish c .badDesc
  else if s.poisoned (vfOf n) (c.u 0x18 8) (c.u 0x16 2 * 16) then s.finish c .poison
  else if s.seqMax n ≤ v.requests.length ∨ v.clientMax (c.u 0x12 2) ≤ v.requests.countP (fun q => q.client = c.u 0x12 2) then
    (s.finish c .busy).count (some n) 0x012 1
  else
    let h := s.nextHome n
    let p := c.u 0x10 1
    let b := match v.program? p with | some r => r.bytes | none => []
    let sample := c.u 0x11 1 = 1
    let orDefault := fun (given dflt : Nat) => if sample ∧ given ≠ 0 then given else dflt
    let q : Request :=
      { cmd := c, tag := c.tag, seq := v.freeSeq, dispatch := false, program := p, client := c.u 0x12 2,
        adapter := (v.pinAdapter (c.u 0x14 2) (bytesField b 8 2) (bytesField b 6 2)).getD none, home := h.1, admitAt := s.now, work := c.u 0x20 8, qtokCap := c.u 0x2C 4,
        outAddr := c.u 0x30 8, outBytes := c.u 0x38 4, maxNew := if c.u 0x3C 4 = 0 then bytesField b 0x0C 4 else c.u 0x3C 4, tokOut := c.u 0x40 8,
        maskAddr := c.u 0x48 8, filter := if c.u 0x50 8 = 0 then bytesField b 0x18 8 else c.u 0x50 8,
        temp := BitVec.ofNat 32 (orDefault (c.u 0x58 4) (bytesField b 0x10 4)), topK := orDefault (c.u 0x5C 2) (bytesField b 0x14 2),
        seed := if sample then BitVec.ofNat 64 (c.u 0x60 8) else 0, sample, stage := 1, phase := .early, notes := 0, wide := false, retried := false,
        failed := none, cancelled := false, waitSlots := [], promptLen := 0, prefixLen := 0, promptAt := 0, pfx := 0, pos := 0, maxOut := 0, step := 0, last := 0,
        ready := false, pages := [], reserve := 0, handle := none, builder := false, firstUs := 0, outDone := 0, heldText := [],
        gstate := match v.grammar? (bytesField b 1 1) with | some g => g.start | none => 0 }
    let s := h.2.writeMem (vfOf n) q.work (headerBytes q s.churn.num.toNat)
    let job : Nat → TextJob := fun i => .new i q.home (.token q.tag)
    (s.modSrv n fun v => { v with requests := v.requests ++ [q], nextText := v.nextText + 1, text := v.text ++ [job v.nextText] }).count (some n) 0x010 1

/-- Finish the cancellation of requests: at once when no slot of the Stall was open on the home die, else when those have ended (R320). -/
def State.cancelSettle (s : State) (n : StallId) : State :=
  let l := (s.serving[n]).requests.filter fun q => q.cancelled && q.waitSlots.isEmpty
  l.foldl (fun s q => s.endRequest n q.tag) s

/-- Cancel a set of requests as CANCEL does, with their completions (R319, R320). -/
def State.cancelAll (s : State) (n : StallId) (l : List Word) : State :=
  let s := l.foldl (fun s t => s.cancelMark n t) s
  (((s.dropCancelled n).cancelSettle n).batchSweep n).freeUnloaded n

/-- CANCEL (R319, R320). -/
def State.startCancel (s : State) (n : StallId) (c : Cmd) : State :=
  let mode := c.u 0x16 1
  if 2 < mode then s.finish c .badDesc
  else
    let l := ((s.serving[n]).requests.filter fun q => !q.cancelled && (match mode with
      | 0 => decide (q.tag.toNat = c.u 0x10 4)
      | 1 => !q.dispatch && decide (q.client = c.u 0x14 2)
      | _ => true)).map (·.tag)
    if l.isEmpty then s.finish c .notFound
    else
      let s := s.modSrv n fun v => { v with cancels := v.cancels ++ [{ cmd := c, targets := l, count := l.length }] }
      (s.cancelAll n l).pumpCancels n

/-- A new batch, numbered with the next batch number. -/
def State.newBatch (s : State) (n : StallId) (d : Die) (kind : BatchKind) (roots : List (BitVec 16 × BitVec 16 × List (BitVec 64))) (retry : Nat) (rows : List GenRow) : State × Nat :=
  let num := s.nextBatch % 2 ^ 32
  let b : Batch := { num, die := d, kind, roots := roots.map fun x => ({ handle := x.1, args := x.2.2, batch := num }, x.2.1), retry, wide := false, waiting := true,
                     ending := none, popped := [], served := [], again := false, dead := [], rows, pins := none }
  ({ s with nextBatch := s.nextBatch + 1 }.modSrv n fun v => { v with batches := v.batches ++ [b] }, num)

/-- DISPATCH (R127, R321). -/
def State.startDispatch (s : State) (n : StallId) (c : Cmd) : State :=
  let v := s.serving[n]
  let f := vfOf n
  let a := c.u 0x10 8
  let k := c.u 0x18 4
  let die := c.u 0x1C 1
  if k = 0 ∨ 1024 < k ∨ (3 < die ∧ die ≠ 0xFF) ∨ 7 < c.u 0x1D 1 ∨ (v.req? c.tag).isSome then s.finish c .badDesc
  else if !addrOk a || !s.covered f a (72 * k) then s.finish c .badDesc
  else if s.poisoned f a (72 * k) then s.finish c .poison
  else
    let items := (List.range k).map fun i => s.readMem f (a + 72 * i) 72
    let roots := items.map fun b => (BitVec.ofNat 16 (bytesField b 0 2), BitVec.ofNat 16 (bytesField b 2 2), (List.range 8).map fun j => BitVec.ofNat 64 (bytesField b (8 + 8 * j) 8))
    let named := roots.map (fun r => r.1) ++ (roots.map (fun r => r.2.1)).filter (· ≠ 0xFFFF)
    if items.any (fun b => !bytesZero b 4 4) || named.any (fun h => (v.kernel? h).isNone) then s.finish c .badDesc
    else if named.any (fun h => match v.kernel? h with | some (x, _) => x.unloading | none => false) then s.finish c .noStall
    else if s.seqMax n ≤ v.requests.length then (s.finish c .busy)
    else if roots.any (fun r => s.boundTooLong n r.1) then (s.finish c .overrun)
    else
      let h := if die = 0xFF then s.nextHome n else (Fin.ofNat 4 die, s)
      let q : Request :=
        { cmd := c, tag := c.tag, seq := v.freeSeq, dispatch := true, program := 0, client := 4096, adapter := none, home := h.1, admitAt := s.now, work := 0, qtokCap := 0,
          outAddr := 0, outBytes := 0, maxNew := 0, tokOut := 0, maskAddr := 0, filter := 0, temp := 0, topK := 0, seed := 0, sample := false, stage := 0,
          phase := .early, notes := 0, wide := false, retried := false, failed := none, cancelled := false, waitSlots := [], promptLen := 0, prefixLen := 0, promptAt := 0,
          pfx := 0, pos := 0, maxOut := 0, step := 0, last := 0, ready := false, pages := [], reserve := 0, handle := none, builder := false, firstUs := 0,
          outDone := 0, heldText := [], gstate := 0 }
      let s := (h.2.modSrv n fun v => { v with requests := v.requests ++ [q] }).count (some n) 0x010 1
      let x := s.newBatch n h.1 (.dispatch c.tag) roots (c.u 0x1D 1) []
      x.1.placeBatch n x.2

/-! ### Programs, models, adapters, clients, configuration -/

/-- What R302 does not allow in a program record (Table 12.7). -/
def Serving.progBad (v : Serving) (b : List Byte) : Bool :=
  let k := v.keep
  let u := bytesField b
  let vocab := u 0 1
  (v.vocab? vocab).isNone || v.retiring 0x34 0 vocab ||
  (decide (u 1 1 ≠ 0xFF) && (match v.grammar? (u 1 1) with | some g => decide (g.vocab ≠ vocab) || v.retiring 0x34 1 (u 1 1) | none => true)) ||
  (match v.template? (u 2 1) with | some t => decide (t.vocab ≠ vocab) || v.retiring 0x34 2 (u 2 1) | none => true) ||
  !(k.indexes.any fun x => x.handle = u 3 1 && !x.retiring) || (decide (u 4 1 ≠ 0xFF) && !(k.tables.any fun x => x.handle = u 4 1 && x.ready && !x.retiring)) ||
  !(k.tables.any fun x => x.handle = u 5 1 && x.ready && !x.retiring) ||
  (decide (u 6 2 ≠ 0xFFFF) && (match v.model? (u 6 2) with | some m => decide (bytesField m.bytes 0 1 ≠ 1) || v.retiring 0x13 0 (u 6 2) | none => true)) ||
  decide (255 < u 8 2 ∧ u 8 2 ≠ 0xFFFE) || decide (1 < u 0x0A 1) || !bytesZero b 0x0B 1 || decide (u 0x0C 4 = 0 ∨ 131072 < u 0x0C 4) || !bytesZero b 0x16 2
/-- PROG_BIND (R302). -/
def State.startProgBind (s : State) (n : StallId) (c : Cmd) : State :=
  let v := s.serving[n]
  let k := v.keep
  let f := vfOf n
  let a := c.u 0x10 8
  if !addrOk a || !s.covered f a 256 then s.finish c .badDesc
  else if s.poisoned f a 256 then s.finish c .poison
  else
    let b := s.readMem f a 256
    if v.progBad b then s.finish c .badDesc
    else match s.pick (freeNumbers 64 fun i => k.programs.any fun p => p.handle = i) with
      | none => s.finish c .quota
      | some h =>
        let s := s.useFree.modSrv n fun v => { v with keep := { v.keep with programs := v.keep.programs ++ [⟨h, b, false⟩] } }
        (s.writeMem f (k.cfg.prog + h * 256) b).finish c .ok h

/-- PROG_RETIRE, MDL_RETIRE and TXT_RETIRE: no longer admitted at once, freed when no admitted request uses the object (R291, log 20). -/
def State.startRetire (s : State) (n : StallId) (c : Cmd) : State := (s.modSrv n fun v => { v with retires := v.retires ++ [c] }).pumpRetires n

def State.startProgRetire (s : State) (n : StallId) (c : Cmd) : State :=
  if ((s.serving[n]).program? (c.u 0x10 4)).isNone || (s.serving[n]).retiring 0x11 0 (c.u 0x10 4) then s.finish c .badDesc else s.startRetire n c
def State.startMdlRetire (s : State) (n : StallId) (c : Cmd) : State :=
  if ((s.serving[n]).model? (c.u 0x10 4)).isNone || (s.serving[n]).retiring 0x13 0 (c.u 0x10 4) then s.finish c .badDesc else s.startRetire n c

/-- What R306 does not allow in a model record (Table 12.9). -/
def State.modelBad (s : State) (n : StallId) (b : List Byte) : Bool :=
  let v := s.serving[n]
  let f := vfOf n
  let u := bytesField b
  decide (1 < u 0 1) || decide (7 < u 1 1) || decide (u 2 2 = 0 ∨ 1024 < u 2 2) || (v.kernel? (BitVec.ofNat 16 (u 4 2))).isNone ||
    (decide (u 6 2 ≠ 0xFFFF) && (v.kernel? (BitVec.ofNat 16 (u 6 2))).isNone) || !addrOk (u 8 8) || !addrOk (u 0x10 8) || decide (u 0x10 8 % 4096 ≠ 0) ||
    decide (u 0x18 4 = 0 ∨ 2 ^ 24 < u 0x18 4) || decide (u 0x1C 4 = 0 ∨ u 0x1C 4 % 4096 ≠ 0) || decide (u 0x20 4 < 64 ∨ 8192 < u 0x20 4 ∨ u 0x20 4 % 64 ≠ 0) ||
    decide (u 0x24 4 < u 0x20 4 ∨ 65536 < u 0x24 4) || !bytesZero b 0x28 24 || !s.inHbm f (u 0x10 8) (u 0x18 4 * u 0x1C 4)
/-- MDL_REG (R306). -/
def State.startMdlReg (s : State) (n : StallId) (c : Cmd) : State :=
  let v := s.serving[n]
  let f := vfOf n
  let a := c.u 0x10 8
  if !addrOk a || !s.covered f a 64 then s.finish c .badDesc
  else if s.poisoned f a 64 then s.finish c .poison
  else
    let b := s.readMem f a 64
    if s.modelBad n b then s.finish c .badDesc
    else match s.pick (freeNumbers 256 fun i => v.keep.models.any fun m => m.handle = i) with
      | none => s.finish c .quota
      | some h => (s.useFree.modSrv n fun v => { v with keep := { v.keep with models := v.keep.models ++ [⟨h, b⟩] } }).finish c .ok h

def Serving.modAdapter (v : Serving) (a m : Nat) (g : Adapter → Adapter) : Serving :=
  { v with keep := { v.keep with adapters := v.keep.adapters.map fun x => if x.id = a ∧ x.model = m then g x else x } }

/-- ADP_LOAD (R316): loads of one adapter of one model run one at a time, in the order fetched. -/
def State.startAdpLoad (s : State) (n : StallId) (c : Cmd) : State :=
  let v := s.serving[n]
  let a := c.u 0x10 2
  let m := c.u 0x12 2
  let w := c.u 0x18 8
  let k := c.u 0x20 4
  if 255 < a || (v.model? m).isNone || !addrOk w || !s.covered (vfOf n) w k then s.finish c .badDesc
  else
    let s := if v.keep.adapters.any (fun x => x.id = a && x.model = m) then s
      else s.modSrv n fun v => { v with keep := { v.keep with adapters := v.keep.adapters ++ [{ id := a, model := m, ver := 0, addr := 0, bytes := 0, next := none, old := none, oldAddr := 0, queue := [] }] } }
    s.modSrv n fun v => v.modAdapter a m fun x =>
      if x.next.isNone && x.old.isNone && x.queue.isEmpty then { x with next := some (c, w, k) } else { x with queue := x.queue ++ [c] }

/-- CLT_SET: in force at the next Churn boundary (R318). -/
def State.startCltSet (s : State) (n : StallId) (c : Cmd) : State :=
  let i := c.u 0x10 2
  if 4095 < i ∨ 4096 < c.u 0x12 2 then s.finish c .badDesc
  else
    let nx := (c.u 0x12 2, BitVec.ofNat 32 (c.u 0x14 4))
    let s := s.modSrv n fun v =>
      let l := v.keep.clients
      let l := if l.any (fun x => x.id = i) then l else l ++ [{ id := i, maxSeq := 4096, budget := 0xFFFFFFFF, left := 0xFFFFFFFF, next := none }]
      { v with keep := { v.keep with clients := l.map fun x => if x.id = i then { x with next := some nx } else x } }
    s.finish c .ok

/-- PFX_DROP (R315). -/
def State.startPfxDrop (s : State) (n : StallId) (c : Cmd) : State :=
  let mode := c.u 0x12 1
  if 1 < mode ∨ (mode = 0 ∧ 4095 < c.u 0x10 2) then s.finish c .badDesc
  else
    let hit := fun (h : PfxHandle) => !h.dropped && (mode = 1 || h.key.ns = c.u 0x10 2 + 1)
    let k := (s.serving[n]).handles.countP hit
    let drop := fun (h : PfxHandle) => if hit h = true then (if h.mapped.isEmpty then none else some { h with dropped := true }) else some h
    (s.modSrv n fun v => { v with handles := v.handles.filterMap drop }).finish c .ok k

def trigOf (b : List Byte) (i : Nat) : Trig :=
  let u := fun o k => bytesField b (0x20 + 16 * i + o) k
  { handle := BitVec.ofNat 16 (u 0 2), wide := BitVec.ofNat 16 (u 2 2), items := u 4 2, min := u 6 2, maxWait := u 8 2, retry := u 10 1 }
def Trig.ok (t : Trig) : Bool :=
  t = Trig.none || (decide (1 ≤ t.items) && decide (t.items ≤ 1024) &&
    decide (1 ≤ t.min) && decide (t.min ≤ 1024) && decide (t.retry ≤ 7))
/-- A trigger entry whose HANDLE names no kernel by 0xFFFF is unused (log 21). -/
def trigNorm (t : Trig) : Trig := if t.handle = 0xFFFF then Trig.none else t

/-- An area of the configuration record: none (0), or wholly in the Stall's allocations. -/
def State.areaOk (s : State) (f : Fn) (a n : Nat) : Bool := decide (a = 0) || (addrOk a && s.writable f a n)

/-- The triggers of a configuration record. -/
def cfgTrigs (b : List Byte) : List Trig := [trigNorm (trigOf b 0), trigNorm (trigOf b 1), trigNorm (trigOf b 2)]
/-- What R303 does not allow in a configuration record (Table 12.8). -/
def State.cfgBad (s : State) (n : StallId) (b : List Byte) : Bool :=
  let f := vfOf n
  !bytesZero b 0x18 8 || !bytesZero b 0x50 48 || !bytesZero b 0x2B 5 || !bytesZero b 0x3B 5 || !bytesZero b 0x4B 5 || (cfgTrigs b).any (fun x => !x.ok) ||
    !(s.areaOk f (bytesField b 0 8) 0x4000000 && s.areaOk f (bytesField b 8 8) 0x400000 && s.areaOk f (bytesField b 0x10 8) 0x4000)

/-- SRV_CFG (R303): only while nothing is in flight and no program is bound, as it always carries the area addresses; triggers at the next boundary. -/
def State.startSrvCfg (s : State) (n : StallId) (c : Cmd) : State :=
  let v := s.serving[n]
  let f := vfOf n
  let a := c.u 0x10 8
  if !addrOk a || !s.covered f a 128 then s.finish c .badDesc
  else if s.poisoned f a 128 then s.finish c .poison
  else
    let b := s.readMem f a 128
    let pt := bytesField b 0 8
    let row := bytesField b 8 8
    let pg := bytesField b 0x10 8
    if s.cfgBad n b then s.finish c .badDesc
    else if !v.requests.isEmpty || !v.keep.programs.isEmpty then s.finish c .cfgReject
    else (s.modSrv n fun v => { v with keep := { v.keep with cfg := { v.keep.cfg with pt, row, prog := pg, next := some (cfgTrigs b) } } }).finish c .ok

end Sys2Proof.Machine
end

