-- ==== Sys2Proof/Machine/CmdLoad.lean ====
section
/-! DEFINITION. The loader: the checks of a DOB container and what DOB_LOAD and DOB_UNLOAD do when they start (R87–R89, R93, R108, R112–R117). -/
namespace Sys2Proof.Machine

/-- A kernel's instructions: first address, and operation and fields of each. -/
structure KernelCode where
  start : Nat
  ins   : List (Nat × DyWord)

def KernelCode.stop (k : KernelCode) : Nat := k.start + k.ins.length
def KernelCode.at? (k : KernelCode) (a : Nat) : Option (Nat × DyWord) := if k.start ≤ a then k.ins[a - k.start]? else none
def KernelCode.op (k : KernelCode) (a : Nat) : Nat := match k.at? a with | some x => x.1 | none => 0
def KernelCode.holds (k : KernelCode) (a : Int) : Bool := decide ((k.start : Int) ≤ a) && decide (a < k.stop)
def KernelCode.targetOf (k : KernelCode) (a : Nat) : Int := match k.at? a with | some x => a + x.2.low.toInt | none => -1
def isBranch (op : Nat) : Bool := decide (0x30 ≤ op) && decide (op ≤ 0x36)
def hasTarget (op : Nat) : Bool := isBranch op || op = 0x37 || op = 0x39
/-- The addresses of a kernel. -/
def KernelCode.addrs (k : KernelCode) : List Nat := (List.range k.ins.length).map (· + k.start)
/-- Loop bodies: the loop's address, first and last address of its body. -/
def KernelCode.bodies (k : KernelCode) : List (Nat × Nat × Nat) := k.addrs.filterMap fun a => if k.op a = 0x39 then some (a, a + 1, (k.targetOf a).toNat) else none
/-- The bodies that hold an address. -/
def KernelCode.inside (k : KernelCode) (a : Nat) : List (Nat × Nat × Nat) := k.bodies.filter fun b => decide (b.2.1 ≤ a) && decide (a ≤ b.2.2)
def KernelCode.depth (k : KernelCode) (a : Nat) : Nat := (k.inside a).length

/-- Where control can go from an address within its routine: calls return. -/
def KernelCode.next (k : KernelCode) (a : Nat) : List Nat :=
  let t := (k.targetOf a).toNat
  let op := k.op a
  if op = 0x36 then [t] else if isBranch op then [a + 1, t] else if op = 0x38 ∨ op = 0x3C ∨ op = 0x3D then []
  else if op = 0x39 then [a + 1, t + 1] else if op = 0x3A ∨ op = 0x3B then (a + 1) :: ((k.inside a).getLast?.map fun b => b.2.2 + 1).toList else [a + 1]

/-- Addresses reached without leaving the routine, by a worklist. -/
def KernelCode.reach (k : KernelCode) : Nat → List Nat → List Nat → List Nat
  | 0, _, seen => seen
  | _ + 1, [], seen => seen
  | g + 1, a :: work, seen =>
    if seen.contains a || (k.at? a).isNone then k.reach g work seen else k.reach g (k.next a ++ work) (a :: seen)

/-- Every address to which control can get from some address, calls followed too. -/
def KernelCode.closure (k : KernelCode) : Nat → List Nat → List Nat → List Nat
  | 0, _, seen => seen
  | _ + 1, [], seen => seen
  | g + 1, a :: work, seen =>
    if seen.contains a || (k.at? a).isNone then k.closure g work seen
    else k.closure g ((if k.op a = 0x37 then [(k.targetOf a).toNat] else []) ++ k.next a ++ work) (a :: seen)

/-- Flow rules that need no path: violations as address and reason (R91, R93, Table 4.17: 6 FLOW, 7 LOOP). DESIGN CHOICE: a loop whose IMM is zero or negative has no
body that could lie in the enclosing one and is FLOW; R93 does not name the case (log 17). -/
def KernelCode.staticFlow (k : KernelCode) : List (Nat × Nat) :=
  let targets := k.addrs.filter fun a => hasTarget (k.op a) && !k.holds (k.targetOf a)
  let loops := k.bodies.filterMap fun b => if b.2.2 ≤ b.1 then some b.1 else none
  let nested := k.bodies.filterMap fun b => if k.bodies.any fun c => decide (c.2.1 ≤ b.1) && decide (b.1 ≤ c.2.2) && decide (c.2.2 < b.2.2) then some b.1 else none
  let cross := k.addrs.filter fun a => isBranch (k.op a) && k.inside a != k.inside (k.targetOf a).toNat
  let lasts := k.bodies.filterMap fun b => if isBranch (k.op b.2.2) || [0x37, 0x38, 0x39].contains (k.op b.2.2) then some b.2.2 else none
  let outside := k.addrs.filter fun a => (k.op a = 0x3A || k.op a = 0x3B) && k.depth a = 0
  let fin := if [0x3C, 0x3D, 0x36, 0x38].contains (k.op (k.stop - 1)) then [] else [k.stop - 1]
  let cycles := k.addrs.filter fun a => k.op a = 0x37 && (k.closure (5 * k.ins.length + 8) [(k.targetOf a).toNat] []).contains a
  (targets ++ loops ++ nested ++ cross ++ lasts ++ outside ++ fin ++ cycles).map fun a => (a, 6)

/-- The loops among some addresses whose depth is above 3 or that do not name the counter of their depth, their depth at the addresses being `depth` (R93). -/
def KernelCode.badLoops (k : KernelCode) (depth : Nat → Nat) (l : List Nat) : List (Nat × Nat) :=
  (l.filter fun a => match k.at? a with | some x => decide (x.1 = 0x39) && (decide (3 < depth a) || decide (x.2.d.toNat ≠ depth a)) | none => false).map fun a => (a, 7)

/-- Follow a routine from its entry, which may lie in a body; no path may run past the kernel, as a skipped loop could whose body ends it (log 17): `base` is the loop depth at its call site, `lvl` the calls that may still nest. Answers violations, and each routine
entered with its base and the address of its call. -/
def KernelCode.routine (k : KernelCode) : Nat → Nat → Nat → Bool → List (Nat × Nat) × List (Nat × Nat × Nat)
  | 0, _, _, _ => ([], [])
  | lvl + 1, entry, base, main =>
    let r := k.reach (4 * k.ins.length + 8) [entry] []
    let local_ := fun a => k.depth a - k.depth entry
    let paths := r.filter fun a => decide (k.depth a < k.depth entry ∨ (k.op a = 0x38 ∧ main) ∨ ((k.op a = 0x3A ∨ k.op a = 0x3B) ∧ local_ a = 0) ∨ (k.op a = 0x37 ∧ lvl = 0)) ||
      (k.next a).any fun x => decide (k.stop ≤ x)
    let bad := paths.map (fun a => (a, 6)) ++ k.badLoops (fun a => base + local_ a) r
    (r.filter fun a => k.op a = 0x37).foldl (fun acc a =>
      let e := (k.targetOf a).toNat
      let x := k.routine lvl e (base + local_ a) false
      (acc.1 ++ x.1, acc.2 ++ (e, base + local_ a, a) :: x.2)) (bad, [])

/-- The control-flow violation with the lowest address, if any. Instructions that no path from the kernel's first instruction reaches keep the rules too: their loops at the
depth of the bodies that hold them, and the routines that their calls enter from there (log 17). -/
def KernelCode.flow (k : KernelCode) : Option (Nat × Nat) :=
  let fuel := 5 * k.ins.length + 8
  let main := k.routine 9 k.start 0 true
  let seen := k.closure fuel [k.start] []
  let rest := k.addrs.filter fun a => !seen.contains a
  let entries := (rest.filter fun a => k.op a = 0x37).map fun a => (k.targetOf a).toNat
  let called := k.closure fuel entries []
  let roots := rest.filter fun a => !called.contains a
  let subs := (roots.filter fun a => k.op a = 0x37).map fun a => (k.routine 8 (k.targetOf a).toNat (k.depth a) false, ((k.targetOf a).toNat, k.depth a, a))
  let sites := main.2 ++ subs.flatMap fun x => x.2 :: x.1.2
  let uneven := sites.filterMap fun e => if sites.any fun g => g.1 = e.1 && g.2.1 ≠ e.2.1 then some (e.2.2, 6) else none
  let all := k.staticFlow ++ main.1 ++ k.badLoops k.depth roots ++ subs.flatMap (fun x => x.1.1) ++ uneven
  all.foldl (fun (m : Option (Nat × Nat)) y => match m with | some z => if y.1 < z.1 then some y else some z | none => some y) none

/-- Instruction violations of a kernel, lowest address first (R89, Table 4.17). -/
def KernelCode.instr (k : KernelCode) (nkern : Nat) : Option (Nat × Nat) :=
  (List.zip k.addrs k.ins).findSome? fun (a, op, w) =>
    match dyRefusal op w with
    | some r => some (a, r)
    | none => if op = 0xC2 ∧ nkern ≤ (DySub w).toNat then some (a, 0x0A) else none

/-- Units that an operation uses (Table 4.16): bit 0 array, bit 1 MV path, bit 2 queues, bit 3 spawn. -/
def unitOf (op : Nat) : Nat :=
  if 0x90 ≤ op ∧ op ≤ 0x94 then 1 else if op = 0x95 then 2 else if op = 0xC0 ∨ op = 0xC1 then 4 else if op = 0xC2 then 8 else 0

structure Sect where
  type   : Nat
  off    : Nat
  size   : Nat
deriving DecidableEq, Repr

/-- A container as the loader reads it. -/
structure Dob where
  bytes : List Byte
  nkern : Nat
  digest : List Byte
  level : Nat
  sects : List Sect

def Dob.sect (d : Dob) (t : Nat) : Option Sect := d.sects.find? fun x => x.type = t
def Dob.u (d : Dob) (o n : Nat) : Nat := bytesField d.bytes o n

/-- Step 1 of R115: header, section table and sections; none is FORMAT. DESIGN CHOICE: reserved bytes other than zero in the header, the section table or a kernel table
entry, a section of TYPE 0, and a kernel table whose size is not 32 × NKERN are FORMAT too (log 90). -/
def parseDob (b : List Byte) : Option Dob :=
  let u := bytesField b
  let total := u 8 4
  let nsect := u 0x0C 2
  let nkern := u 0x12 2
  let tab := u 0x14 4
  if b.length < 128 ∨ u 0 4 ≠ 0x31424F44 ∨ u 4 2 ≠ 1 ∨ u 6 2 ≠ 0x80 ∨ total < 128 ∨ b.length ≠ total ∨ 2 ^ 24 < total ∨ nsect < 2 ∨ 16 < nsect ∨ u 0x0E 2 ≠ 0 ∨ nkern = 0 ∨
      256 < nkern ∨ u 0x18 8 ≠ 0 ∨ !bytesZero b 0x50 48 ∨ tab < 128 ∨ total < tab + 16 * nsect then none
  else
    let sects := (List.range nsect).map fun i => (⟨u (tab + 16 * i) 2, u (tab + 16 * i + 4) 4, u (tab + 16 * i + 8) 4⟩ : Sect)
    let areas := (0, 128) :: (tab, 16 * nsect) :: sects.map fun x => (x.off, x.size)
    let clash := (List.range areas.length).any fun i => (List.range i).any fun j =>
      match areas[i]?, areas[j]? with
      | some x, some y => decide (0 < x.2) && decide (0 < y.2) && decide (x.1 < y.1 + y.2) && decide (y.1 < x.1 + x.2)
      | _, _ => false
    let count := fun t => sects.countP fun x => x.type = t
    let reserved := (List.range nsect).any fun i => u (tab + 16 * i + 2) 2 ≠ 0 || u (tab + 16 * i + 12) 4 ≠ 0
    let bad := reserved || clash || sects.any (fun x => decide (x.off % 8 ≠ 0 ∨ total < x.off + x.size ∨ x.type = 0 ∨ (4 < x.type ∧ x.type < 0x8000)) ||
        (decide (x.type = 1) && decide (x.size % 8 ≠ 0)) || (decide (x.type = 2) && decide (x.size ≠ 32 * nkern)) || (decide (x.type = 3) && decide (2 ^ 22 < x.size))) ||
      decide (count 1 ≠ 1 ∨ count 2 ≠ 1 ∨ 1 < count 3 ∨ 1 < count 4)
    if bad then none else some { bytes := b.take total, nkern, digest := (b.drop 0x20).take 48, level := u 0x10 2, sects }

/-- Field `o` of kernel `i`'s KTAB entry. -/
def Dob.k (d : Dob) (i o n : Nat) : Nat := match d.sect 2 with | some x => d.u (x.off + 32 * i + o) n | none => 0
def Dob.codeWords (d : Dob) : Nat := match d.sect 1 with | some x => x.size / 8 | none => 0
def Dob.code (d : Dob) (i : Nat) : KernelCode :=
  let base := match d.sect 1 with | some x => x.off | none => 0
  { start := d.k i 0 4, ins := (List.range (d.k i 4 4)).map fun j => decodeDy (BitVec.ofNat 64 (d.u (base + 8 * (d.k i 0 4 + j)) 8)) }
/-- The words of the code section. -/
def Dob.words (d : Dob) : List (BitVec 64) := match d.sect 1 with | some x => (List.range (x.size / 8)).map fun j => BitVec.ofNat 64 (d.u (x.off + 8 * j) 8) | none => []
def Dob.constBytes (d : Dob) : List Byte := match d.sect 3 with | some x => (d.bytes.drop x.off).take x.size | none => []

/-- Does a kernel table entry keep Table 4.16? -/
def Dob.entryOk (d : Dob) (i : Nat) : Bool :=
  let len := d.k i 4 4
  let names := match d.sect 4 with | some x => x.size | none => 0
  decide (1 ≤ len) && decide (len ≤ 65536) && decide (d.k i 0 4 + len ≤ d.codeWords) && decide (d.k i 0x10 1 ≤ 8) && decide (d.k i 0x11 1 ≤ 15) &&
    (decide (d.k i 0x0C 4 = 0xFFFFFFFF) || decide (d.k i 0x0C 4 < names)) && decide (d.k i 0x12 8 = 0) && decide (d.k i 0x1A 6 = 0) &&
    (d.code i).ins.all fun x => decide (unitOf x.1 &&& d.k i 0x11 1 = unitOf x.1)

/-- The longest BOUND that R108 allows a Stall now. -/
def State.boundLimit (s : State) (n : StallId) : Nat :=
  match s.stallEntries n with
  | [] => s.periodUs * 1300
  | e :: es => (es.foldl (fun m x => max m x.length) e.length) * 1300
def State.boundBad (s : State) (n : StallId) (b : Nat) : Bool := decide (b = 0) || decide (10400000 < b) || decide (s.boundLimit n < b)

/-- A refusal: reason, kernel index, instruction address (R115). -/
abbrev LoadRefusal := Nat × Nat × Nat

def firstSome {α : Type} (l : List (Option α)) : Option α := l.findSome? id

/-- Steps 4 and 5 of R115. -/
def State.kernelChecks (s : State) (n : StallId) (d : Dob) : Option LoadRefusal :=
  match (List.range d.nkern).find? fun i => !d.entryOk i with
  | some i => some (1, i, 0xFFFFFFFF)
  | none => (List.range d.nkern).findSome? fun i =>
    match (d.code i).instr d.nkern with
    | some (a, r) => some (r, i, a)
    | none => match (d.code i).flow with
      | some (a, r) => some (r, i, a)
      | none => if s.boundBad n (d.k i 8 4) then some (9, i, d.k i 0 4) else none

/-- The charge of a container before translation (R115). -/
def Dob.charge (d : Dob) : Nat :=
  ((List.range d.nkern).map fun i => 128 * d.k i 4 4 + 4096).sum + d.constBytes.length

def State.refuseLoad (s : State) (n : StallId) (c : Cmd) (r : LoadRefusal) : State :=
  (s.complete c { status := .loadRefused, pc := BitVec.ofNat 32 r.2.2, reason := BitVec.ofNat 32 (r.1 + r.2.1 * 256) }).count (some n) 0x027 1

def handleBytes (l : List Kernel) : List Byte := l.flatMap fun k => toBytesLE 2 k.handle.toNat

/-- Handles for a new container: unique in the Stall, chosen by the loader (R116, log 3). -/
def State.newHandles (s : State) (n : StallId) (k : Nat) : List Nat :=
  let v := s.serving[n]
  let used := (v.keep.containers ++ v.loading.map (·.cont)).flatMap fun c => c.kernels.map fun x => x.handle.toNat
  let l := freeNumbers 0xFFFF fun i => used.contains i
  let j := s.free % (l.length + 1)
  (l.drop j ++ l.take j).take k

/-- Room for the constants: a device allocation, SPREAD over the Stall's groups. -/
def State.constAlloc (s : State) (n : StallId) (bytes : Nat) : Option Alloc :=
  let units := bytesUnits bytes
  let groups := s.placeGroups (vfOf n) false 0
  if s.fits groups (units * 512) then
    (s.chooseBase (vfOf n) false units).map fun base =>
      { base, units, tier := .hbm, retain := true, cache := true, demote := false, place := 0, commons := false, groups, peer := 0, exp := 0, lastUse := 0, dirty := [],
        zeroing := none, move := none, freeing := none, withdrawn := false, device := true, upTo := 0 }
  else none

/-- DOB_LOAD: all the checks of R115, then the translation runs until TRANSLATION_DONE; a match in the cache completes at once (R114). -/
def State.startDobLoad (s : State) (n : StallId) (c : Cmd) : State :=
  let v := s.serving[n]
  let f := vfOf n
  let a := c.u 0x10 8
  let hs := c.u 0x20 8
  if !addrOk a || !addrOk hs || !s.covered f a (c.u 0x18 4) then s.finish c .badDesc
  else if s.poisoned f a (c.u 0x18 4) then s.refuseLoad n c (1, 0xFFFF, 0xFFFFFFFF)
  else match parseDob (s.readMem f a (c.u 0x18 4)) with
  | none => s.refuseLoad n c (1, 0xFFFF, 0xFFFFFFFF)
  | some d =>
    if !s.writable f hs (2 * d.nkern) then s.finish c .badDesc
    else if sha384 (d.bytes.drop 128) ≠ d.digest then s.refuseLoad n c (2, 0xFFFF, 0xFFFFFFFF)
    else if d.level ≠ 1 then s.refuseLoad n c (3, 0xFFFF, 0xFFFFFFFF)
    else match v.keep.containers.find? fun x => x.digest = ofBytesLE d.digest && !x.unloading with
    | some x =>
      (match (List.range x.kernels.length).find? fun i => match x.kernels[i]? with | some k => s.boundBad n k.bound | none => false with
       | some i => s.refuseLoad n c (9, i, match x.kernels[i]? with | some k => k.start | none => 0)
       | none => (s.writeMem f hs (handleBytes x.kernels)).finish c .ok x.kernels.length)
    | none =>
      match s.kernelChecks n d with
      | some r => s.refuseLoad n c r
      | none =>
        let held := ((v.keep.containers ++ v.loading.map (·.cont)).map fun x => x.kernels.length).sum
        let consts := d.constBytes
        let alloc := if consts.isEmpty then none else s.constAlloc n consts.length
        if 4096 < held + d.nkern then s.refuseLoad n c (0x0B, 0xFFFF, 0xFFFFFFFF)
        else if s.quotaHbm n * unitBytes < s.hbmUse n * unitBytes + d.charge ∨ (!consts.isEmpty ∧ alloc.isNone) then s.refuseLoad n c (0x0C, 0xFFFF, 0xFFFFFFFF)
        else
          let hl := s.useFree.newHandles n d.nkern
          let ks := (List.range d.nkern).map fun i => (⟨BitVec.ofNat 16 (hl.getD i 0), d.k i 0 4, d.k i 4 4, d.k i 8 4⟩ : Kernel)
          let base := match alloc with | some x => x.base | none => s.useFree.free % 2 ^ 48
          let id := ((v.keep.containers ++ v.loading.map (·.cont)).map fun x => x.id + 1).foldl max v.nextCont
          let cont : Container := { id, digest := ofBytesLE d.digest, step := 0, consts := base, kernels := ks, code := d.words, charge := d.charge, unloading := false }
          let s := s.useFree.useFree
          let s := match alloc with
            | some x => (s.modFnMem f fun m => { m with allocs := m.allocs ++ [x] }).writeMem f base consts
            | none => s
          s.modSrv n fun v => { v with nextCont := id + 1, loading := v.loading ++ [{ cmd := c, cont }] }

/-- DOB_UNLOAD (R117): the kernels are refused at once; the translation goes when its last instance ends. -/
def State.startDobUnload (s : State) (n : StallId) (c : Cmd) : State :=
  match (s.serving[n]).kernel? (BitVec.ofNat 16 (c.u 0x10 4)) with
  | some (x, _) =>
    if x.unloading || 0xFFFF < c.u 0x10 4 then s.finish c .badDesc
    else
      let s := s.modSrv n fun v => { v with keep := { v.keep with containers := v.keep.containers.map fun y => if y.id = x.id then { y with unloading := true } else y } }
      (s.freeUnloaded n).finish c .ok
  | none => s.finish c .badDesc

end Sys2Proof.Machine
end

