-- ==== Sys2Proof/Machine/CmdMemory.lean ====
section
/-! DEFINITION. The memory commands of the rings (R334–R345, R351, R353), on a VF or on PF0. -/
namespace Sys2Proof.Machine

/-- Flag fields of Table 14.2. -/
def tierOf (k : Nat) : Tier := if k = 1 then .flash else if k = 2 then .pool else .hbm

/-- Does adding to a Stall's uses keep every tier to its quota (R347, R348)? A tier to which nothing is added is not checked. -/
def State.quotaOk (s : State) (n : StallId) (hbm flash pool : Nat) : Bool :=
  (hbm = 0 || decide (s.hbmUse n + hbm ≤ s.quotaHbm n)) && (flash = 0 || decide (s.flashUse n + flash ≤ s.quotaFlash n)) &&
    (pool = 0 || decide (s.poolUse n + pool ≤ s.quotaPool n))

/-- Checks 2 to 5 of R336, and the provider's limits (R326, R517). -/
def State.allocFits (s : State) (f : Fn) (a : Alloc) : Bool :=
  let hbm := if a.tier = .hbm then a.units else 0
  let quota := match stallOf f with
    | some n => (a.tier ≠ .pool || (s.reg (.stl n) 0x20).getLsbD 1) &&
        s.quotaOk n (hbm + extentUnits a.units) a.flashUnits (if a.tier = .pool then a.units else 0) && decide (((s.mem.fns[f]).allocs.filter fun x => !x.device).length < 4096)
    | none => a.tier ≠ .pool && (a.tier ≠ .hbm || a.commons || decide (s.providerUse + a.units ≤ 0x1000))
  quota && (a.tier ≠ .hbm || s.fits a.groups (a.units * 512)) && (a.flashUnits = 0 || decide (a.flashUnits ≤ s.flashFree))

def addrResults (a : Nat) : Nat × Nat := (a % 2 ^ 32, a / 2 ^ 32 % 65536)

/-- Fields of MEM_ALLOC that R336 and Table 14.2 do not allow. -/
def Cmd.allocBad (c : Cmd) : Bool :=
  let fl := c.u 0x18 4
  let tier := tierOf (fl % 4)
  let place := fl / 32 % 8
  let commons := fl.testBit 8
  decide (c.u 0x10 8 = 0 ∨ fl % 4 = 3 ∨ 512 ≤ fl ∨ ((fl.testBit 2 ∨ fl.testBit 4 ∨ commons) ∧ tier ≠ .hbm) ∨ (commons ∧ c.f ≠ pf0) ∨ (tier = .hbm ∧ 1 ≤ place ∧ place ≤ 3) ∨
      (tier = .pool ∧ 256 ≤ c.u 0x1C 2))
/-- The allocation that a MEM_ALLOC asks for; its base is chosen with its place. -/
def State.newAlloc (s : State) (c : Cmd) : Alloc :=
  let fl := c.u 0x18 4
  let tier := tierOf (fl % 4)
  let place := fl / 32 % 8
  let commons := fl.testBit 8
  { base := 0, units := bytesUnits (c.u 0x10 8), tier, retain := fl.testBit 2, cache := fl.testBit 3, demote := fl.testBit 4, place, commons,
    groups := if tier = .hbm then s.placeGroups c.f commons place else [], peer := BitVec.ofNat 16 (c.u 0x1C 2), exp := BitVec.ofNat 8 (c.u 0x1E 1),
    lastUse := s.churn.num.toNat, dirty := [], zeroing := if tier = .hbm then some c else none, move := none, freeing := none, withdrawn := false, device := false, upTo := 0 }

/-- MEM_ALLOC (R336). An HBM allocation completes at ALLOC_ZERO_FILL_DONE. -/
def State.startMemAlloc (s : State) (c : Cmd) : State :=
  let f := c.f
  let a := s.newAlloc c
  if c.allocBad then s.finish c .badDesc
  else match s.allocFits f a, s.chooseBase f a.commons a.units with
    | true, some base =>
      let s := (s.useFree.clearRange f base (a.units * unitBytes)).modFnMem f fun m => { m with allocs := m.allocs ++ [{ a with base }] }
      if a.tier = .hbm then s else s.finish c .ok (addrResults base).1 (addrResults base).2
    | _, _ => s.finish c .quota

/-- The allocation of a function that a command names by its base; one that is still being filled, or that the loader made, has no name yet. -/
def FnMem.named (m : FnMem) (a : Nat) : Option Alloc := m.allocs.find? fun x => x.base = a && !x.device && x.zeroing.isNone && x.freeing.isNone

def syncTouches (r : SyncRun) (a : Alloc) : Bool := decide (r.lo < a.top) && decide (a.base < r.hi)

/-- Free an allocation: unmapped, its space returned, its exports withdrawn; what it holds of flash is released with the next commit record (R337). PF0 has no image,
and so no commit record: its flash returns at once (log 100). -/
def State.freeNow (s : State) (f : Fn) (a : Alloc) (c : Cmd) : State :=
  let s := s.clearRange f a.base (a.units * unitBytes)
  (s.modFnMem f fun m => { m with allocs := m.allocs.filter (fun x => x.base ≠ a.base), staged := m.staged.filter (fun x => x.base ≠ a.base),
                                  exports := m.exports.filter fun x => x.base ≠ a.base
                                  gone := if f = pf0 then m.gone else m.gone ++ [(a.base, a.units * unitBytes, a.flashUnits)] }).finish c .ok

/-- Frees that wait for no running SYNC or tier change any longer. -/
def State.pumpFrees (s : State) (f : Fn) : State :=
  (s.mem.fns[f]).allocs.foldl (fun s a =>
    match a.freeing with
    | some c => if a.move.isNone && !(s.mem.fns[f]).syncs.any (fun r => syncTouches r a) then s.freeNow f a c else s
    | none => s) s

/-- MEM_FREE (R337). -/
def State.startMemFree (s : State) (c : Cmd) : State :=
  match (s.mem.fns[c.f]).named (c.u 0x10 8) with
  | none => s.finish c .badDesc
  | some a => (s.modAllocAt c.f a.base fun a => { a with freeing := some c }).pumpFrees c.f

/-- The dirty pages of a range, by address / 65,536: those of RETAIN allocations and the dirty staging pages (R339, R344). -/
def FnMem.dirtyPages (m : FnMem) (lo hi : Nat) : List Nat :=
  let kept : List Nat := m.allocs.flatMap fun (a : Alloc) => a.dirty.map fun q => a.base / 65536 + q
  let staged : List Nat := (m.staged.filter (·.dirty)).map fun (x : Staged) => x.base / 65536 + x.page
  (kept ++ staged).filter fun p => decide (lo < (p + 1) * 65536) && decide (p * 65536 < hi)

/-- MEM_SYNC (R344): the range's dirty lines are written to their homes, and its dirty pages wait to be copied into the share; it completes when its commit record is in
the write buffer. -/
def State.startMemSync (s : State) (c : Cmd) : State :=
  let lo := c.u 0x10 8
  let n := c.u 0x18 8
  if !addrOk lo || !s.inAllocs c.f (fun _ => true) 4097 lo n || decide (commonsBase < lo + n) then (s.count (stallOf c.f) 0x077 1).finish c .badDesc
  else
    let left := ((s.mem.fns[c.f]).dirtyPages lo (lo + n)).eraseDups
    ((s.cleanLines c.f lo (lo + n)).modFnMem c.f fun m =>
      { m with syncs := m.syncs ++ [{ cmd := c, lo, hi := lo + n, left }], copyQ := m.copyQ ++ left.filter fun p => !m.copyQ.contains p }).pumpCopies c.f

/-! ### Tier changes (R351) -/

/-- Pages of an allocation. -/
def Alloc.pages (a : Alloc) : Nat := a.units * 32
/-- The next page of a tier change has moved. -/
def State.pageMoved (s : State) (f : Fn) (base : Nat) : State :=
  s.modAllocAt f base fun a => { a with move := a.move.map fun m => { m with done := m.done + 1, reads := [] } }
/-- A page comes from flash into the destination placement: its staging page is released, and what only that held leaves the page of a RETAIN allocation dirty. -/
def State.pageLanded (s : State) (f : Fn) (a : Alloc) (page : Nat) : State :=
  let dirty := (s.mem.fns[f]).staged.any fun x => x.base = a.base && x.page = page && x.dirty
  let s := s.modFnMem f fun m => { m with staged := m.staged.filter fun x => !(x.base = a.base && x.page = page) }
  (if dirty && a.retain then s.modAllocAt f a.base fun b => { b with dirty := setInsert b.dirty page } else s).pageMoved f a.base
/-- One page of a tier change, in ascending address. From HBM to flash, a clean page of a RETAIN allocation takes its backing copy, and any other page is copied into
the share, which must have room for it. From flash to HBM, the sectors that neither a staging page nor the share holds are read in flash turns. The page's lines are
written to their old home, which they then leave. The answer says whether it has moved. -/
def State.movePage (s : State) (f : Fn) (a : Alloc) (m : TierMove) : State × Bool :=
  let p := a.base / 65536 + m.done
  let x := a.base + m.done * 65536
  let old := a.tierAt x
  let leave := fun (s : State) => (s.cleanLines f x (x + 65536)).dropLines fun k => decide (k / 1024 = memKey f x / 65536)
  if a.pages ≤ m.done ∨ m.reads ≠ [] then (s, false)
  else if old = m.dest then ((leave s).pageMoved f a.base, true)
  else match m.dest with
    | .hbm =>
      let locs := if (s.mem.fns[f]).staged.any fun y => y.base = a.base && y.page = m.done && !y.filling then [] else s.locsOf f (s.fillSecs f p)
      if (s.mem.fns[f]).pageFills p then (s, false)
      else if locs = [] then ((leave s).pageLanded f a m.done, true)
      else (((s.askSectors f (s.fillSecs f p)).modAllocAt f a.base fun b => { b with move := b.move.map fun y => { y with reads := locs.eraseDups } }), false)
    | _ =>
      if a.retain && !a.dirty.contains m.done then ((leave s).pageMoved f a.base, true)
      else if s.copyRoom f 16 then ((leave (s.copyPage f p)).pageMoved f a.base, true) else (s, false)
/-- The pages of one tier change, while they move. `fuel`: pages left. -/
def State.moveFuel (s : State) (f : Fn) (base : Nat) : Nat → State
  | 0 => s
  | k + 1 =>
    match (s.mem.fns[f]).allocs.find? fun a => a.base = base with
    | some a => (match a.move with
      | some m => let r := s.movePage f a m; if r.2 then r.1.moveFuel f base k else r.1
      | none => s)
    | none => s
/-- Tier changes go on as far as they can. -/
def State.pumpMoves (s : State) (f : Fn) : State := (s.mem.fns[f]).allocs.foldl (fun s a => if a.move.isSome then s.moveFuel f a.base (a.pages + 1) else s) s
/-- What waited for the share or for a page goes on. -/
def State.pumpMem (s : State) (f : Fn) : State := (s.pumpCopies f).pumpMoves f

/-- Begin a tier change: the destination is charged in full at its start (R351). None when it does not fit. -/
def State.beginMove (s : State) (f : Fn) (a : Alloc) (dest : Tier) (place : Nat) (cmd : Option Cmd) : Option State :=
  let groups := if dest = .hbm then s.placeGroups f a.commons place else []
  let flash := if dest = .flash ∧ a.flashUnits = 0 then a.units else 0
  let hbm := if dest = .hbm ∧ a.tier ≠ .hbm then a.units else 0
  let ok := (match stallOf f with
    | some n => s.quotaOk n hbm flash 0
    | none => hbm = 0 || decide (s.providerUse + hbm ≤ 0x1000)) &&
    (dest ≠ .hbm || s.fits groups (a.units * 512)) && (flash = 0 || decide (flash ≤ s.flashFree))
  if ok then some ((s.modAllocAt f a.base fun a => { a with move := some { cmd, dest, place, groups, done := if dest = .flash then a.upTo else 0, reads := [] } }).pumpMoves f) else none

/-- MEM_MOVE (R351): pool allocations do not move; one already changing answers BUSY (log 26). -/
def State.startMemMove (s : State) (c : Cmd) : State :=
  let fl := c.u 0x18 4
  let place := fl / 32 % 8
  match (s.mem.fns[c.f]).named (c.u 0x10 8) with
  | none => s.finish c .badDesc
  | some a =>
    if 1 < fl % 4 ∨ a.tier = .pool ∨ a.commons ∨ fl / 4 % 8 ≠ 0 ∨ 256 ≤ fl ∨ (fl % 4 = 0 ∧ 1 ≤ place ∧ place ≤ 3) then s.finish c .badDesc
    else if a.move.isSome then s.finish c .busy
    else match s.beginMove c.f a (tierOf (fl % 4)) place (some c) with
      | some s => s
      | none => s.finish c .quota

/-- Does a range lie in one allocation of the function itself? -/
def State.inOne (s : State) (f : Fn) (x n : Nat) : Bool :=
  match s.allocAt f x with
  | some a => decide (x + n ≤ a.top)
  | none => false

/-- MEM_HOST_IN and MEM_HOST_OUT (R338): both ranges are checked before any byte moves. -/
def State.startHostCopy (s : State) (c : Cmd) (into : Bool) : State :=
  let host := c.u 0x10 8
  let dev := c.u 0x18 8
  let n := c.u 0x20 8
  if !addrOk dev || !s.inOne c.f dev n || decide (2 ^ 64 < host + n) || (into && !s.writable c.f dev n) then s.finish c .badDesc
  else if n = 0 then s.finish c .ok
  else s.modHost c.f fun h => { h with copies := h.copies ++ [{ cmd := c, into, host, dev, bytes := n, asked := 0, done := 0, buf := [] }] }

/-- Does a host copy come from a given direction? -/
def HostFn.copyIn? (h : HostFn) : Option HostCopy := h.copies.find? (·.into)
def HostFn.modCopy (h : HostFn) (c : HostCopy) (g : HostCopy → HostCopy) : HostFn := { h with copies := h.copies.map fun x => if x.cmd = c.cmd then g x else x }
def HostFn.dropCopy (h : HostFn) (c : HostCopy) : HostFn := { h with copies := h.copies.filter fun x => x.cmd ≠ c.cmd }
/-- Bytes that a MEM_HOST_IN has received are written once they can be; it completes with its last byte (R338). -/
def State.pumpCopyIn (s : State) (f : Fn) : State :=
  match s.host[f].copyIn? with
  | some c =>
    if c.buf.isEmpty then s
    else if !s.ready f [] [(c.dev + c.done, c.buf.length)] then s.seek f 0 [] [(c.dev + c.done, c.buf.length)]
    else
      let s := s.writeMem f (c.dev + c.done) c.buf
      let done := c.done + c.buf.length
      if done = c.bytes then (s.modHost f fun h => h.dropCopy c).finish c.cmd .ok (done % 2 ^ 32) (done / 2 ^ 32)
      else s.modHost f fun h => h.modCopy c fun x => { x with done, buf := [] }
  | none => s

/-- MEM_EXPORT (R353): a Stall's own HBM allocation, at most 256 exports. -/
def State.startExport (s : State) (c : Cmd) : State :=
  let m := s.mem.fns[c.f]
  match m.named (c.u 0x10 8) with
  | none => s.finish c .badDesc
  | some a =>
    if a.tier ≠ .hbm ∨ c.f = pf0 ∨ 256 ≤ c.u 0x18 2 then s.finish c .badDesc
    else match s.pick (freeNumbers 256 fun i => m.exports.any fun x => x.num = i) with
      | none => s.finish c .quota
      | some i => (s.useFree.modFnMem c.f fun m => { m with exports := m.exports ++ [{ num := i, base := a.base, peer := BitVec.ofNat 16 (c.u 0x18 2) }] }).finish c .ok i

def State.startUnexport (s : State) (c : Cmd) : State :=
  if (s.mem.fns[c.f]).exports.any fun x => x.num = c.u 0x10 1 then
    (s.modFnMem c.f fun m => { m with exports := m.exports.filter fun x => x.num ≠ c.u 0x10 1 }).finish c .ok
  else s.finish c .badDesc

/-- Dirty pages of a function (R339). -/
def FnMem.dirtyCount (m : FnMem) : Nat := (m.allocs.map fun a => a.dirty.length).sum + m.staged.countP (·.dirty)
def State.waysOf (s : State) (n : StallId) (d : Nat) : Nat := (waysIn (s.wayMask n d)).length

/-- The record of Table 14.4. PF0's fields are those of the provider area (log 27). -/
def State.queryBytes (s : State) (f : Fn) : List Byte :=
  let m := s.mem.fns[f]
  let quota := match stallOf f with
    | some n => [s.quotaHbm n, s.quotaFlash n, s.quotaPool n, s.hbmUse n, s.flashUse n, s.poolUse n]
    | none => [0x1000, s.flashFree + m.flashUse, 0, s.providerUse, m.flashUse, 0]
  let die := match stallOf f with
    | some n => ((List.range 4).map fun d => ((s.stallGroups n).filter fun g => groupDie g = d).length) ++ (List.range 4).map fun d => s.waysOf n d
    | none => List.replicate 8 0
  (quota ++ [m.dirtyCount, (m.allocs.filter fun a => !a.device).length, m.staged.length]).flatMap (toBytesLE 4) ++ die.flatMap (toBytesLE 1) ++ List.replicate 20 0

/-- The records of MEM_QUERY are written, in order, as they can be. -/
def State.pumpQueries (s : State) (f : Fn) : State :=
  (s.mem.fns[f]).queries.foldl (fun s c =>
    if (s.mem.fns[f]).queries.head? ≠ some c then s
    else if !s.ready f [] [(c.u 0x10 8, 64)] then s.seek f 0 [] [(c.u 0x10 8, 64)]
    else
      ((s.writeMem f (c.u 0x10 8) (s.queryBytes f)).modFnMem f fun m => { m with queries := m.queries.drop 1 }).finish c .ok) s
def State.startQuery (s : State) (c : Cmd) : State :=
  let a := c.u 0x10 8
  if !addrOk a || decide (a % 64 ≠ 0) || !s.writable c.f a 64 then s.finish c .badDesc
  else (s.modFnMem c.f fun m => { m with queries := m.queries ++ [c] }).pumpQueries c.f

end Sys2Proof.Machine
end

