-- ==== Sys2Proof/Machine/Walks.lean ====
section
/-! DEFINITION. Graph walks: shards, candidate queues, the walk step by step, and the results it posts (R186–R206). -/
namespace Sys2Proof.Machine

/-! ### Indexes and shards -/

def Serving.index? (v : Serving) (h : Nat) : Option Index := v.keep.indexes.find? fun x => x.handle = h
def Serving.modIndex (v : Serving) (h : Nat) (g : Index → Index) : Serving := { v with keep := { v.keep with indexes := v.keep.indexes.map fun x => if x.handle = h then g x else x } }
/-- "No node" and "no passage" (R187, R189). -/
def noNode : Nat := 0xFFFFFFFF
def noEpoch : Nat := 0xFFFFFFFFFF

/-- META of a node: ATTR, BIRTH, DEATH (Table 8.1). -/
structure NodeMeta where
  attr  : Nat
  birth : Nat
  death : Nat
deriving DecidableEq, Repr

def State.nodeMeta (s : State) (f : Fn) (sh : Shard) (n : Nat) : NodeMeta :=
  let b := s.readMem f (sh.metaB + 16 * n) 16
  ⟨bytesField b 0 6, bytesField b 6 5, bytesField b 11 5⟩
def NodeMeta.bytes (m : NodeMeta) : List Byte := toBytesLE 6 m.attr ++ toBytesLE 5 m.birth ++ toBytesLE 5 m.death
/-- Table 8.2: free or unborn nodes are skipped; live nodes may be returned. -/
def NodeMeta.skip (m : NodeMeta) (e : Nat) : Bool := decide (m.birth = noEpoch) || decide (e < m.birth)
def NodeMeta.live (m : NodeMeta) (e : Nat) : Bool := !m.skip e && decide (e < m.death)

def State.nodeCode (s : State) (f : Fn) (x : Index) (sh : Shard) (n : Nat) : Nat := s.readNat f (sh.code + n * (x.w / 8)) (x.w / 8)
def State.nodeAdj (s : State) (f : Fn) (x : Index) (sh : Shard) (n : Nat) : List Nat := (List.range x.d).map fun i => s.readNat f (sh.adj + n * (4 * x.d) + 4 * i) 4

/-- Set bits of a number below 2^`k`. -/
def bitCount (x : Nat) : Nat → Nat
  | 0 => 0
  | k + 1 => (if x.testBit k then 1 else 0) + bitCount x k
/-- The Hamming distance of two W-bit codes (R190). -/
def hamming (w a b : Nat) : Nat := bitCount (a ^^^ b) w

/-! ### Candidate queue, result list, filter -/

def insertCand (c : Cand) : List Cand → List Cand
  | [] => [c]
  | x :: xs => if c.dist < x.dist ∨ (c.dist = x.dist ∧ c.node < x.node) then c :: x :: xs else x :: insertCand c xs
/-- Offer a node to a candidate queue of at most `ef` (R198). -/
def offerCand (ef : Nat) (q : List Cand) (c : Cand) : List Cand := if q.any (fun x => x.node = c.node) then q else (insertCand c q).take ef
def insertRes (c : Nat × Nat) : List (Nat × Nat) → List (Nat × Nat)
  | [] => [c]
  | x :: xs => if c.1 < x.1 ∨ (c.1 = x.1 ∧ c.2 < x.2) then c :: x :: xs else x :: insertRes c xs
def offerRes (r : Nat) (q : List (Nat × Nat)) (c : Nat × Nat) : List (Nat × Nat) := if q.any (fun x => x.2 = c.2) then q else (insertRes c q).take r

/-- A clause holds for an ATTR (Table 8.5). -/
def Clause.holds (c : Clause) (attr : Nat) : Bool :=
  match c.op with
  | 0 => attr &&& c.mask == c.value
  | 1 => attr &&& c.mask != c.value
  | 2 => attr &&& c.mask != 0
  | _ => attr &&& c.mask == 0

/-- A filter record; none where it breaks Table 8.5. -/
def State.filterOf (s : State) (f : Fn) (a : Nat) : Option (List Clause) :=
  let b := s.readMem f a 80
  let ncl := bytesField b 0 4
  if ncl = 0 ∨ 4 < ncl ∨ 256 ≤ bytesField b 4 4 ∨ !bytesZero b 8 8 then none
  else (List.range ncl).mapM fun i =>
    let m := bytesField b (0x10 + 16 * i) 8
    let v := bytesField b (0x18 + 16 * i) 8
    if m < 2 ^ 48 ∧ v < 2 ^ 48 then some ⟨bytesField b 4 4 / 4 ^ i % 4, m, v⟩ else none

/-! ### The walk (R198–R201) -/

/-- The visited table of 4,096 identifiers takes in a node (R199). -/
def visitedAdd (l : List Nat) (n : Nat) : List Nat := if l.length < 4096 then l ++ [n] else l.set (Config.visitedVictim l n % 4096) n

/-- Mark the first unexpanded node of the queue expanded. -/
def markExpanded : List Cand → List Cand
  | [] => []
  | c :: cs => if c.expanded then c :: markExpanded cs else { c with expanded := true } :: cs

/-- FLAGS of Table 8.7. -/
def wfShort : BitVec 32 := 1
def wfLimit : BitVec 32 := 2
def wfPoison : BitVec 32 := 4
def wfNoEntry : BitVec 32 := 8
def wfBadArg : BitVec 32 := 16
def wfNoIndex : BitVec 32 := 32

/-- The walk stops: its block is written next (R203–R206). An insert walk holds its candidates. -/
def Walk.stop (w : Walk) : Walk :=
  if w.insert.isSome then { w with req := .finished, todo := [] }
  else
    { w with todo := [], req := .block 0, flags := w.flags ||| (if w.results.length < w.r then wfShort else 0) ||| (if w.entered then 0 else wfNoEntry) }

/-- Offer the list buffers the lists of the next unexpanded nodes of the queue: those that no buffer holds, while buffers are free (R200, log 31). -/
def Walk.prefetchNext (w : Walk) : Walk :=
  let next := ((w.queue.filter fun c => !c.expanded).take w.prefetch).map (·.node)
  { w with wanted := (next.filter fun n => !w.bufs.any fun b => b.node = n).take (4 - w.bufs.length) }
/-- The list of the node being expanded is read: its slots are to be visited, after the lists to prefetch. -/
def Walk.listRead (w : Walk) (slots : List Nat) (bad : Bool) : Walk :=
  ({ w with todo := slots, fromAdj := true, flags := if bad then w.flags ||| wfPoison else w.flags } : Walk).prefetchNext

/-- Go on with the nodes still to enter: skip empty slots and visited nodes, read META of the next. `last`: what follows the last. -/
def Walk.advance (cap : Nat) (last : Walk → Walk) (w : Walk) : List Nat → Walk
  | [] => last { w with todo := [] }
  | n :: ns =>
    if cap ≤ n || (w.fromAdj && w.visited.contains n) then Walk.advance cap last w ns
    else { w with todo := ns, visited := if w.fromAdj then visitedAdd w.visited n else w.visited, req := .metaOf n }
/-- No node is left to enter: expand the first unexpanded candidate, whose list is read unless a buffer holds it, or stop. `fuel`: the lists buffered. -/
def Walk.expand (cap : Nat) : Nat → Walk → Walk
  | k, w =>
    match w.queue.find? fun c => !c.expanded with
    | none => w.stop
    | some c =>
      if w.limit ≠ 0 ∧ w.expanded = w.limit * 64 then { w with flags := w.flags ||| wfLimit }.stop
      else
        let w := { w with queue := markExpanded w.queue, expanded := w.expanded + 1, todo := [] }
        match k, w.bufs.find? fun b => b.node = c.node with
        | k + 1, some b =>
          let w := ({ w with bufs := w.bufs.filter fun y => y.node ≠ c.node } : Walk).listRead b.slots b.bad
          (match w.wanted with
           | m :: rest => { w with wanted := rest, req := .listOf m 0 [] false }
           | [] => w.advance cap (Walk.expand cap k) w.todo)
        | _, _ => { w with req := .adjOf c.node 0 [] }
/-- The next request of a walk: a list to prefetch, else the next node to enter. Buffers of nodes that have left the queue are given up. -/
def Walk.go (cap : Nat) (w : Walk) : Walk :=
  let w := { w with bufs := w.bufs.filter fun b => w.queue.any fun c => c.node = b.node }
  match w.wanted with
  | m :: rest => { w with wanted := rest, req := .listOf m 0 [] false }
  | [] => w.advance cap (Walk.expand cap w.bufs.length) w.todo

/-- Enter a node at its distance (R198). -/
def Walk.enter (w : Walk) (n dist attr : Nat) (live : Bool) : Walk :=
  let pass := w.clauses.all fun c => c.holds attr
  { w with queue := offerCand w.ef w.queue ⟨dist, n, false⟩
           results := if live && pass && w.insert.isNone then offerRes w.r w.results (dist, n) else w.results
           failed := if live && !pass then setInsert w.failed n else w.failed
           entered := w.entered || !w.fromAdj }

/-- A line of an adjacency list: its 16 slots, all empty where it is poisoned (R201). -/
def State.adjLine (s : State) (f : Fn) (x : Index) (sh : Shard) (n line : Nat) : List Nat × Bool :=
  let a := sh.adj + n * (4 * x.d) + 64 * line
  if s.poisoned f a 64 then (List.replicate 16 noNode, true) else ((List.range 16).map fun i => s.readNat f (a + 4 * i) 4, false)
/-- A memory request of the walk other than a block write returns. -/
def State.walkStep (s : State) (f : Fn) (x : Index) (sh : Shard) (w : Walk) : Walk :=
  let w := { w with flight := false }
  match w.req with
  | .metaOf n =>
    let w := { w with visits := w.visits + 1 }
    let a := sh.metaB + 16 * n
    if s.poisoned f a 16 then ({ w with flags := w.flags ||| wfPoison }).go sh.cap
    else
      let m := s.nodeMeta f sh n
      if m.skip w.epoch then w.go sh.cap else { w with req := .codeOf n 0 0 m.attr (m.live w.epoch) }
  | .codeOf n line dist attr live =>
    let bytes := min 64 (x.w / 8)
    let a := sh.code + n * (x.w / 8) + 64 * line
    if s.poisoned f a bytes then ({ w with flags := w.flags ||| wfPoison }).go sh.cap
    else
      let d := dist + hamming (8 * bytes) (s.readNat f a bytes) (w.code / 2 ^ (512 * line) % 2 ^ (8 * bytes))
      if x.w ≤ 512 * (line + 1) then (w.enter n d attr live).go sh.cap else { w with req := .codeOf n (line + 1) d attr live }
  | .adjOf n line acc =>
    let l := s.adjLine f x sh n line
    let w := if l.2 then { w with flags := w.flags ||| wfPoison } else w
    if 4 * x.d ≤ 64 * (line + 1) then (w.listRead (acc ++ l.1) false).go sh.cap else { w with req := .adjOf n (line + 1) (acc ++ l.1) }
  | .listOf n line acc bad =>
    let l := s.adjLine f x sh n line
    if 4 * x.d ≤ 64 * (line + 1) then ({ w with bufs := w.bufs ++ [⟨n, acc ++ l.1, bad || l.2⟩] } : Walk).go sh.cap
    else { w with req := .listOf n (line + 1) (acc ++ l.1) (bad || l.2) }
  | _ => w

/-- The bytes that a walk's request reads. -/
def Walk.reads (x : Index) (sh : Shard) (w : Walk) : List (Nat × Nat) :=
  match w.req with
  | .metaOf n => [(sh.metaB + 16 * n, 16)]
  | .codeOf n line _ _ _ => [(sh.code + n * (x.w / 8) + 64 * line, min 64 (x.w / 8))]
  | .adjOf n line _ => [(sh.adj + n * (4 * x.d) + 64 * line, 64)]
  | .listOf n line _ _ => [(sh.adj + n * (4 * x.d) + 64 * line, 64)]
  | _ => []

/-! ### Results (R203–R206) -/

def resultRows (r : Nat) : Nat := roundUp 16 r
def blockBytes (r : Nat) : Nat := 64 + 16 * resultRows r

/-- A natural number below 2^24 in binary32, exactly. -/
def natF32 (x : Nat) : Nat := if x = 0 then 0 else (127 + Nat.log2 x) * 2 ^ 23 + (x * 2 ^ (23 - Nat.log2 x)) % 2 ^ 23

/-- A walk result queue entry (Table 8.7). -/
def walkEntry (tag walk walks block shard index flags found r epoch expanded visits filtered us : Nat) : Entry :=
  entryOfBytes (toBytesLE 4 tag ++ toBytesLE 2 walk ++ toBytesLE 2 walks ++ toBytesLE 6 block ++ toBytesLE 1 shard ++ toBytesLE 1 index ++ toBytesLE 4 flags ++
    toBytesLE 2 found ++ toBytesLE 2 r ++ toBytesLE 8 epoch ++ toBytesLE 4 expanded ++ toBytesLE 4 visits ++ toBytesLE 4 filtered ++ toBytesLE 4 us ++ List.replicate 16 0)

def Walk.blockAddr (w : Walk) : Nat := Entry.field w.entry 8 6 + w.walk * blockBytes w.r
def State.walkResult (s : State) (w : Walk) : Entry :=
  walkEntry w.tag.toNat w.walk w.walks w.blockAddr w.shard w.index w.flags.toNat w.results.length w.r w.epoch w.expanded w.visits w.failed.length ((s.now - w.began) / usBclk)

/-- The block of a walk (Table 8.6). -/
def walkBlock (w : Walk) (width : Nat) (e : Entry) : List Byte :=
  let rows := List.range (resultRows w.r)
  Entry.bytes e ++ rows.flatMap (fun i => toBytesLE 4 (match w.results[i]? with | some x => natF32 (width - x.1) | none => 0xFF800000)) ++
    rows.flatMap (fun i => toBytesLE 4 (w.walk * 1024 + i)) ++
    rows.flatMap (fun i => toBytesLE 8 (match w.results[i]? with | some x => w.shard * 2 ^ 32 + x.2 | none => 0xFFFFFFFFFF))

/-- An engine pushes an entry into a B-die queue, or must hold it: the holding is counted when it begins (R19). -/
def State.tryPush (s : State) (n : StallId) (d : Die) (q : Nat) (e : Entry) : Option State :=
  if s.queueFull n d q then none else some ((s.enqueue n d q (s.mkEntry e)).modReq n (s.mkEntry e).tag fun r => { r with stage := queueStage q })

def Serving.modWalk (v : Serving) (d : Die) (ctx : Nat) (g : Walk → Option Walk) : Serving :=
  { v with walks := v.walks.filterMap fun w => if w.die = d ∧ w.ctx = ctx then g w else some w }

/-- A walk posts its result, or keeps it while the share is full (R205). -/
def State.postWalk (s : State) (n : StallId) (w : Walk) (e : Entry) (first : Bool) : State :=
  match s.tryPush n w.home 2 e with
  | some s =>
    let s := s.modSrv n fun v => { (v.modWalk w.die w.ctx fun _ => none) with nWalks := v.nWalks + 1 }
    let s := (s.count (some n) 0x040 1).count (some n) 0x041 w.expanded
    if w.flags &&& wfShort ≠ 0 then s.count (some n) 0x042 1 else s
  | none =>
    let s := s.modSrv n fun v => v.modWalk w.die w.ctx fun w => some { w with held := some e, req := .finished, flight := false }
    if first then (s.raise .src 0x4).count (some n) 0x032 1 else s

/-- A memory request of a walk returns. The block is written whole before the entry is posted. -/
def State.walkResponse (s : State) (n : StallId) (d : Die) (ctx : Nat) : State :=
  let v := s.serving[n]
  match v.walks.find? fun w => w.die = d && w.ctx = ctx with
  | none => s
  | some w =>
    match v.index? w.index with
    | none => s
    | some x =>
      match x.shards[w.shard]?, w.flight with
      | some sh, true =>
        (match w.req with
         | .block k =>
           if (k + 1) * 64 < blockBytes w.r then s.modSrv n fun v => v.modWalk d ctx fun _ => some { w with req := .block (k + 1), flight := false }
           else
             let e := s.walkResult w
             let out := [(w.blockAddr, blockBytes w.r)]
             if s.ready (vfOf n) [] out then (s.writeMem (vfOf n) w.blockAddr (walkBlock w x.w e) d).postWalk n w e true else s.seek (vfOf n) d [] out
         | .finished => s
         | _ =>
           if !s.ready (vfOf n) (w.reads x sh) [] then s.seek (vfOf n) d (w.reads x sh) []
           else
           let w' := s.walkStep (vfOf n) x sh w
           let s := s.noteReads (vfOf n) (w.reads x sh) d
           let s := if w'.flags &&& wfPoison ≠ 0 ∧ w.flags &&& wfPoison = 0 then s.raise .src 0x1 else s
           s.modSrv n fun v => v.modWalk d ctx fun _ => some w')
      | _, _ => s

/-! ### Refused code queue entries (R195, R206) -/

/-- The shards that SHARD_MASK names, ascending. -/
def maskShards (e : Entry) : List Nat := (List.range 256).filter fun i => (Entry.field e 0x20 32).testBit i

/-- Does a code queue entry fail the check of R195 against its index? -/
def State.codeBad (s : State) (f : Fn) (x : Index) (e : Entry) : Bool :=
  let u := Entry.field e
  let ef := u 0x0E 2
  let r := u 0x16 2
  let l := maskShards e
  let fa := u 0x10 6
  decide (ef < 16 ∨ 1024 < ef) || decide (r = 0 ∨ ef < r) || l.isEmpty || l.any (fun i => decide (x.shards.length ≤ i)) ||
    decide (u 0 6 % 64 ≠ 0) || !s.owned f (u 0 6) (x.w / 8) || decide (u 8 6 % 64 ≠ 0) || !s.writable f (u 8 6) (l.length * blockBytes r) ||
    (decide (fa ≠ 0) && (decide (fa % 16 ≠ 0) || !s.owned f fa 80 || (!s.poisoned f fa 80 && (s.filterOf f fa).isNone)))

/-- The result entry of a code queue entry for which no walk starts: WALK 0, WALKS 1, counts zero (R195, R206). -/
def codeRefusal (e : Entry) (epoch : Nat) (flags : BitVec 32) : Entry :=
  walkEntry (queueTag 1 e).toNat 0 1 (Entry.field e 8 6) 0 (Entry.field e 6 2 % 256) flags.toNat 0 (Entry.field e 0x16 2) epoch 0 0 0 0

/-- The oldest code queue entry of the Stall's share leaves its queue. -/
def State.dropCode (s : State) (n : StallId) (d : Die) : State := s.modSrv n fun v => v.setQueue d 1 ((v.queue d 1).drop 1)

/-- Post the refusal of an entry; while the result share is full the dispatcher holds it, and the holding is counted once (R19). -/
def State.refuseCode (s : State) (n : StallId) (d home : Die) (e : QEntry) (flags : BitVec 32) (bad : Bool) : State :=
  match (s.dropCode n d).tryPush n home 2 (codeRefusal e.e e.note flags) with
  | some t =>
    let t := (t.modSrv n fun v => { v with nWalks := v.nWalks + 1, codeHolds := v.codeHolds.filter fun x => x.1 ≠ d }).count (some n) 0x040 1
    if bad then t.raise .src 0x2 else t
  | none => if (s.serving[n]).codeHolds.contains (d, e.tag) then s
    else (s.modSrv n fun v => { v with codeHolds := v.codeHolds.filter (fun x => x.1 ≠ d) ++ [(d, e.tag)] }).count (some n) 0x032 1

/-- With what a code queue entry is refused, and whether the check of R195 refuses it: an index that is not registered or is retiring gives NO_INDEX. -/
def State.codeRefused (s : State) (n : StallId) (e : Entry) : Option (BitVec 32 × Bool) :=
  match (s.serving[n]).index? (Entry.field e 6 2) with
  | none => some (wfNoIndex, false)
  | some x => if x.retiring then some (wfNoIndex, false) else if s.codeBad (vfOf n) x e then some (wfBadArg, true) else none
/-- A dispatcher that holds a refusal retries it (R19). -/
def State.retryRefusal (s : State) (n : StallId) (d : Die) : State :=
  match (s.serving[n]).queue d 1 with
  | e :: _ =>
    if (s.serving[n]).codeHolds.contains (d, e.tag) then
      match (s.serving[n]).req? e.tag, s.codeRefused n e.e with
      | some q, some x => s.refuseCode n d q.home e x.1 x.2
      | _, _ => s
    else s
  | [] => s

/-- The B-die of a sweep's shard. -/
def Serving.sweepDie (v : Serving) (h : Nat) (r : SweepRun) : Option Die := (v.index? h).bind fun x => (x.shards[r.shard]?).map (·.die)
/-- Contexts on a B-die that sweeps hold. -/
def Serving.sweepCtxs (v : Serving) (d : Die) : List Nat :=
  v.idxCmds.filterMap fun y => match y.run with
    | .sweep r => if v.sweepDie y.handle r = some d then r.ctx else none
    | _ => none
/-- The lowest free context of a Stall's share on a B-die (R196). -/
def State.freeCtx (s : State) (n : StallId) (d : Die) : Option Nat :=
  (List.range (s.walkShare n)).find? fun i => !((s.serving[n]).walks.any fun w => w.die = d && w.ctx = i) && !((s.serving[n]).sweepCtxs d).contains i
/-- Contexts on a B-die that insert walks and sweeps hold, and the limit of SRC_SCFG.MAINT (Table 8.14, R215). -/
def Serving.maintUsed (v : Serving) (d : Die) : Nat := (v.walks.countP fun w => w.die = d && w.insert.isSome) + (v.sweepCtxs d).length
def State.maintLimit (s : State) (n : StallId) : Nat := min (s.walkShare n) (max 1 ((s.reg .src (0x100 + 0x10 * n.val)).toNat % 16))
def State.srcRun (s : State) : Bool := (s.reg .src 0x000).getLsbD 0

end Sys2Proof.Machine
end

