-- ==== Sys2Proof/Machine/CmdSearch.lean ====
section
/-! DEFINITION. The index commands (R186–R192, R207–R215): what they do when they start, updates and sweeps. -/
namespace Sys2Proof.Machine

def codeWidth (w : Nat) : Nat := [128, 256, 512, 1024].getD w 0
def graphDegree (d : Nat) : Nat := [16, 32, 48, 64].getD d 0

/-- The areas of a shard: base and bytes of CODE, ADJ and META. -/
def Shard.areas (sh : Shard) (w d : Nat) : List (Nat × Nat) := [(sh.code, sh.cap * (w / 8)), (sh.adj, sh.cap * (4 * d)), (sh.metaB, sh.cap * 16)]

def areasClash (l : List (Nat × Nat)) : Bool :=
  (List.range l.length).any fun i => (List.range i).any fun j =>
    match l[i]?, l[j]? with
    | some x, some y => decide (x.1 < y.1 + y.2) && decide (y.1 < x.1 + x.2)
    | _, _ => false

/-- A shard descriptor (Table 8.3); none where it breaks R188 or R191. -/
def State.shardOf (s : State) (f : Fn) (w d a : Nat) : Option Shard :=
  let b := s.readMem f a 64
  let u := bytesField b
  let sh : Shard := { die := Fin.ofNat 4 (u 0 1), cap := u 4 4, code := u 8 8, adj := u 0x10 8, metaB := u 0x18 8,
                      entries := (List.range 4).map fun i => u (0x20 + 4 * i) 4, efBuild := u 0x30 2 }
  let ok := decide (u 0 1 < 4) && bytesZero b 1 3 && decide (sh.cap ≠ 0) && decide (16 ≤ sh.efBuild) && decide (sh.efBuild ≤ 1024) && bytesZero b 0x32 14 &&
    (sh.entries.all fun p => decide (p < sh.cap) || decide (p = noNode)) &&
    (sh.areas w d).all fun (x, k) => addrOk x && decide (x % 4096 = 0) && s.onDie f sh.die x k
  if ok then some sh else none

/-- The checks of IDX_REGISTER in their order (R188, R191, R211): the index, or the status with which the command ends. -/
def State.indexCheck (s : State) (n : StallId) (c : Cmd) : Except Code Index :=
  let v := s.serving[n]
  let f := vfOf n
  let a := c.u 0x10 8
  let k := c.u 0x18 4
  let w := codeWidth (c.u 0x1C 1)
  let d := graphDegree (c.u 0x1D 1)
  if k = 0 ∨ 256 < k ∨ w = 0 ∨ d = 0 ∨ !addrOk a ∨ !s.covered f a (64 * k) then .error .badDesc
  else if s.poisoned f a (64 * k) then .error .poison
  else if 16 ≤ v.keep.indexes.length ∨ 256 < (v.keep.indexes.map fun x => x.shards.length).sum + k then .error .quota
  else match (List.range k).mapM fun i => s.shardOf f w d (a + 64 * i), s.pick (freeNumbers 16 fun i => v.keep.indexes.any fun x => x.handle = i) with
    | some shs, some h =>
      if areasClash (shs.flatMap (fun sh => sh.areas w d) ++ v.keep.indexes.flatMap fun x => x.shards.flatMap fun sh => sh.areas x.w x.d) then .error .badIndex
      else .ok { handle := h, w, d, shards := shs, epoch := 0, retiring := false }
    | _, _ => .error .badIndex
/-- IDX_REGISTER (R211). -/
def State.startIdxRegister (s : State) (n : StallId) (c : Cmd) : State :=
  match s.indexCheck n c with
  | .error st => (if st = .poison then s.raise .src 0x1 else s).finish c st
  | .ok x => (s.useFree.modSrv n fun v => { v with keep := { v.keep with indexes := v.keep.indexes ++ [x] } }).finish c .ok x.handle

/-- The least epoch in use of an index (R209). -/
def Serving.eMin (v : Serving) (x : Index) : Nat :=
  let queued := v.queues.flatMap fun q => if q.1 % 16 = 1 then q.2.filterMap fun e => if Entry.field e.e 6 2 = x.handle then some e.note else none else []
  let disp := v.disps.filterMap fun d => if Entry.field d.entry 6 2 = x.handle then some d.epoch else none
  let walks := v.walks.filterMap fun w => if w.insert.isNone ∧ w.index = x.handle then some w.epoch else none
  match queued ++ disp ++ walks with
  | [] => x.epoch
  | e :: es => es.foldl min e

/-! ### Updates (R212, R213) -/

def OpState.running : OpState → Bool
  | .walking => true
  | .ready _ _ => true
  | _ => false
def OpState.waits : OpState → Bool
  | .wait => true
  | _ => false

/-- An operation that needs no walk: a delete, or one that will fail before it writes. -/
def UpdOp.plain (x : Index) (o : UpdOp) : Bool :=
  o.op ≠ 1 || o.bad || o.poison || (match x.shards[o.shard]? with | some sh => decide (sh.cap ≤ o.node) | none => true)

def setOp (ops : List UpdOp) (i : Nat) (st : OpState) : List UpdOp := listModify (fun o => { o with st }) i ops
def Serving.modIdxCmd (v : Serving) (c : Cmd) (run : IdxRun) : Serving := { v with idxCmds := v.idxCmds.map fun y => if y.cmd = c then { y with run } else y }

/-- May operation `i` start: those before it on its shard have started, fewer than MAINT of the shard run, and none on its node (R212)? -/
def mayStart (limit : Nat) (ops : List UpdOp) (i : Nat) (o : UpdOp) : Bool :=
  let before := ops.take i
  o.st.waits && before.all (fun p => !(p.shard = o.shard && (p.st.waits || (p.st.running && p.node = o.node)))) &&
    decide (ops.countP (fun p => p.shard = o.shard && p.st.running) < limit)

/-- An insert walk (R213): the pending epoch, EF_BUILD, no filter, no results. -/
def insertWalk (x : Index) (sh : Shard) (i ctx : Nat) (o : UpdOp) (now : Nat) : Walk :=
  let w : Walk :=
    { ctx, die := sh.die, home := sh.die, insert := some i, entry := 0, walk := 0, walks := 0, index := x.handle, shard := o.shard, epoch := x.epoch + 1, ef := sh.efBuild, r := 0,
      limit := 0, clauses := [], code := o.code, queue := [], results := [], visited := [], todo := sh.entries, fromAdj := false, req := .finished, flight := false,
      entered := false, expanded := 0, visits := 0, failed := [], flags := 0, began := now, held := none, prefetch := 0, wanted := [], bufs := [] }
  w.go sh.cap

/-- Start one operation when it may start. -/
def State.startOp (s : State) (n : StallId) (c : Cmd) (h i : Nat) : State :=
  let v := s.serving[n]
  match v.idxCmds.find? (fun y => y.cmd = c), v.index? h with
  | some { run := .update ops ores, .. }, some x =>
    (match ops[i]? with
     | some o =>
       if !mayStart (s.maintLimit n) ops i o then s
       else if o.plain x then s.modSrv n fun v => v.modIdxCmd c (.update (setOp ops i (.ready [] false)) ores)
       else match x.shards[o.shard]? with
         | some sh =>
           (match s.freeCtx n sh.die with
            | some ctx =>
              if v.maintUsed sh.die < s.maintLimit n then
                s.modSrv n fun v => { (v.modIdxCmd c (.update (setOp ops i .walking) ores)) with walks := v.walks ++ [insertWalk x sh i ctx o s.now] }
              else s
            | none => s)
         | none => s
     | none => s)
  | _, _ => s

/-- Finished insert walks hand their candidates to their operations and free their contexts; then operations start. -/
def State.pumpUpdates (s : State) (n : StallId) : State :=
  let s := ((s.serving[n]).walks.filter fun w => w.insert.isSome && decide (w.req = .finished)).foldl (fun s w =>
    let v := s.serving[n]
    match v.idxCmds.find? (fun y => y.handle = w.index && (match y.run with | .update _ _ => true | _ => false)), w.insert with
    | some { cmd, run := .update ops ores, .. }, some i =>
      s.modSrv n fun v => (v.modIdxCmd cmd (.update (setOp ops i (.ready w.queue (w.flags &&& wfPoison ≠ 0))) ores)).modWalk w.die w.ctx fun _ => none
    | _, _ => s.modSrv n fun v => v.modWalk w.die w.ctx fun _ => none) s
  if !s.srcRun then s
  else (s.serving[n]).idxCmds.foldl (fun s y =>
    match y.run with
    | .update ops _ => (List.range ops.length).foldl (fun s i => s.startOp n y.cmd y.handle i) s
    | _ => s) s

/-- An update operation record (Table 8.9). -/
def State.opAt (s : State) (f : Fn) (w a : Nat) : UpdOp :=
  let b := s.readMem f a (16 + w / 8)
  let u := bytesField b
  -- A DELETE ignores its code.
  let used := if s.poisoned f a 16 || decide (u 0 1 ≠ 1) then 16 else 16 + w / 8
  { op := u 0 1, shard := u 1 1, node := u 4 4, attr := u 8 6, code := u 16 (w / 8), bad := decide (u 0 1 ≠ 1 ∧ u 0 1 ≠ 2) || decide (u 2 2 ≠ 0) || decide (u 0x0E 2 ≠ 0),
    poison := s.poisoned f a used, st := .wait }

/-- Choose the neighbours of a new node (R213): first those nearer to it than to every one kept, then the nearest left. -/
def keepSpread (dist : Nat → Nat → Nat) (d : Nat) : List Cand → List Cand → List Cand
  | [], keep => keep
  | c :: cs, keep =>
    if keep.length = d then keep
    else if keep.all fun k => decide (c.dist < dist c.node k.node) then keepSpread dist d cs (keep ++ [c]) else keepSpread dist d cs keep
def keepFill (d : Nat) : List Cand → List Cand → List Cand
  | [], keep => keep
  | c :: cs, keep => if keep.length < d && !keep.any (fun k => k.node = c.node) then keepFill d cs (keep ++ [c]) else keepFill d cs keep

def adjBytes (l : List Nat) : List Byte := l.flatMap (toBytesLE 4)

/-- Give a kept neighbour a link to the new node: the first empty slot, else in place of its farthest entry when the new node is nearer (R213). -/
def State.linkBack (s : State) (f : Fn) (x : Index) (sh : Shard) (new : Nat) (k : Nat) : State :=
  let l := s.nodeAdj f x sh k
  let put := fun (i : Nat) => s.writeMem f (sh.adj + k * (4 * x.d) + 4 * i) (toBytesLE 4 new) sh.die
  match l.findIdx? fun n => decide (sh.cap ≤ n) with
  | some i => put i
  | none =>
    let kc := s.nodeCode f x sh k
    let dist := fun n => hamming x.w kc (s.nodeCode f x sh n)
    let far := l.foldl (fun m n => if dist m < dist n ∨ (dist m = dist n ∧ m < n) then n else m) (l.headD new)
    if dist new < dist far then (match l.findIdx? (· = far) with | some i => put i | none => s) else s

/-- The neighbours that an INSERT keeps (R213). -/
def State.insertKeep (s : State) (f : Fn) (x : Index) (sh : Shard) (cands : List Cand) : List Nat :=
  let live := cands.filter fun c => (s.nodeMeta f sh c.node).live (x.epoch + 1)
  let dist := fun a b => hamming x.w (s.nodeCode f x sh a) (s.nodeCode f x sh b)
  (keepFill x.d live (keepSpread dist x.d live [])).map (·.node)
def Shard.metaRange (sh : Shard) (k : Nat) : Nat × Nat := (sh.metaB + 16 * k, 16)
def Shard.codeRange (sh : Shard) (x : Index) (k : Nat) : Nat × Nat := (sh.code + k * (x.w / 8), x.w / 8)
def Shard.adjRange (sh : Shard) (x : Index) (k : Nat) : Nat × Nat := (sh.adj + k * (4 * x.d), 4 * x.d)
/-- What an INSERT reads of the shard's arrays before it writes: META and codes of its candidates, the lists of the neighbours it keeps, and where such a list is full,
the codes that linking back compares (R213). -/
def State.insertReads (s : State) (f : Fn) (x : Index) (sh : Shard) (cands : List Cand) : List (Nat × Nat) :=
  (cands.flatMap fun c => [sh.metaRange c.node, sh.codeRange x c.node]) ++ (s.insertKeep f x sh cands).flatMap fun k =>
    let l := s.nodeAdj f x sh k
    sh.adjRange x k :: if l.any fun n => decide (sh.cap ≤ n) then [] else sh.codeRange x k :: l.map (sh.codeRange x)
/-- Apply an INSERT at the pending epoch. -/
def State.applyInsert (s : State) (n : StallId) (x : Index) (sh : Shard) (o : UpdOp) (cands : List Cand) : State :=
  let f := vfOf n
  let e := x.epoch + 1
  let nodes := s.insertKeep f x sh cands
  let s := s.noteReads f (s.insertReads f x sh cands) sh.die
  let s := s.writeMem f (sh.code + o.node * (x.w / 8)) (toBytesLE (x.w / 8) o.code) sh.die
  let s := s.writeMem f (sh.adj + o.node * (4 * x.d)) (adjBytes (nodes ++ List.replicate (x.d - nodes.length) noNode)) sh.die
  let s := s.writeMem f (sh.metaB + 16 * o.node) (NodeMeta.bytes ⟨o.attr, e, noEpoch⟩) sh.die
  let s := nodes.foldl (fun s k => s.linkBack f x sh o.node k) s
  match sh.entries.findIdx? (· = noNode) with
  | some i => s.modSrv n fun v => v.modIndex x.handle fun x => { x with shards := listModify (fun sh => { sh with entries := sh.entries.set i o.node }) o.shard x.shards }
  | none => s

/-- Apply an operation; answers its result byte. One that meets poison changes nothing (R441). -/
def State.applyOp (s : State) (n : StallId) (x : Index) (o : UpdOp) (cands : List Cand) : State × Nat :=
  let f := vfOf n
  if o.poison then (s.raise .src 0x1, 4)
  else if o.bad then (s, 5)
  else match x.shards[o.shard]? with
    | none => (s, 3)
    | some sh =>
      if sh.cap ≤ o.node then (s, 3)
      else if s.poisoned f (sh.metaB + 16 * o.node) 16 then ((s.noteReads f [sh.metaRange o.node] sh.die).raise .src 0x1, 4)
      else
        let m := s.nodeMeta f sh o.node
        let put := fun (m : NodeMeta) => ((s.noteReads f [sh.metaRange o.node] sh.die).writeMem f (sh.metaB + 16 * o.node) m.bytes sh.die, 0)
        if o.op = 1 then
          if m.birth ≠ noEpoch then (s, 1)
          else if (s.insertReads f x sh cands).any fun r => s.poisoned f r.1 r.2 then ((s.noteReads f (s.insertReads f x sh cands) sh.die).raise .src 0x1, 4)
          else (s.applyInsert n x sh o cands, 0)
        else if !m.live (x.epoch + 1) then (s, 2)
        else if m.birth = x.epoch + 1 then put { m with birth := noEpoch }
        else put { m with death := x.epoch + 1 }

def OpState.isDone : OpState → Bool
  | .done => true
  | _ => false

/-! ### Commands on one index run one at a time (R211) -/

/-- Does anything of an index still run or wait: its code entries, walks, and earlier commands (Table 8.8, IDX_RETIRE)? -/
def Serving.indexQuiet (v : Serving) (h : Nat) : Bool :=
  !v.disps.any (fun d => Entry.field d.entry 6 2 = h) && !v.walks.any (fun w => w.index = h)

/-- Begin the command at the head of an index's list. -/
def State.beginIdx (s : State) (n : StallId) (y : IdxCmd) : State :=
  let v := s.serving[n]
  let c := y.cmd
  let f := vfOf n
  let drop := fun (s : State) => s.modSrv n fun v => { v with idxCmds := v.idxCmds.filter fun z => z.cmd ≠ c }
  match v.index? y.handle with
  | none => (drop s).finish c .badIndex
  | some x =>
    match c.op with
    | 0x21 =>
      let k := c.u 0x20 4
      let a := c.u 0x18 8
      let r := c.u 0x28 8
      let size := 16 + x.w / 8
      if k = 0 ∨ 4096 < k ∨ !addrOk a ∨ !addrOk r ∨ !s.covered f a (size * k) ∨ !s.writable f r k then (drop s).finish c .badDesc
      else if x.epoch = 0xFFFFFFFFFE then (drop s).finish c .indexFull
      else if !s.ready f [(a, size * k)] [] then s.seek f 0 [(a, size * k)] []
      else ((s.noteReads f [(a, size * k)]).modSrv n fun v => v.modIdxCmd c (.update ((List.range k).map fun i => s.opAt f x.w (a + size * i)) r)).pumpUpdates n
    | 0x22 =>
      let sh := c.u 0x14 4
      let l := if sh = 0xFFFF then List.range x.shards.length else if sh < x.shards.length then [sh] else []
      match l with
      | [] => (drop s).finish c .badIndex
      | i :: rest => s.modSrv n fun v => v.modIdxCmd c (.sweep { shard := i, emin := v.eMin x, left := rest, freed := 0, later := 0, ctx := none, at_ := 0 })
    | _ =>
      let s := s.modSrv n fun v => (v.modIndex y.handle fun x => { x with retiring := true }).modIdxCmd c .retire
      if (s.serving[n]).indexQuiet y.handle then
        (drop (s.modSrv n fun v => { v with keep := { v.keep with indexes := v.keep.indexes.filter fun x => x.handle ≠ y.handle } })).finish c .ok
      else s

/-- A sweep holds one context on its shard's B-die, within the Stall's share and SRC_SCFG.MAINT. -/
def State.pumpSweeps (s : State) (n : StallId) : State :=
  (s.serving[n]).idxCmds.foldl (fun s y =>
    match y.run with
    | .sweep r => match r.ctx, (s.serving[n]).sweepDie y.handle r with
      | none, some d =>
        (match s.freeCtx n d with
         | some k => if (s.serving[n]).maintUsed d < s.maintLimit n then s.modSrv n fun v => v.modIdxCmd y.cmd (.sweep { r with ctx := some k }) else s
         | none => s)
      | _, _ => s
    | _ => s) s

/-- Start the commands whose index has none before them; end retirements that nothing holds back. -/
def State.pumpIdx (s : State) (n : StallId) : State :=
  (s.serving[n]).idxCmds.foldl (fun s y =>
    match (s.serving[n]).idxCmds.find? fun z => z.handle = y.handle with
    | some z => if decide (z.cmd = y.cmd) && (match z.run with | .wait => true | .retire => (s.serving[n]).indexQuiet z.handle | _ => false) then s.beginIdx n z else s
    | none => s) s
def State.pumpSearch (s : State) (n : StallId) : State := ((s.pumpUpdates n).pumpSweeps n).pumpIdx n

/-- IDX_UPDATE, IDX_SWEEP and IDX_RETIRE join their index's list (R211). A retired handle takes no later command. -/
def State.startIdxCmd (s : State) (n : StallId) (c : Cmd) : State :=
  let v := s.serving[n]
  let h := c.u 0x10 4
  match v.index? h with
  | none => s.finish c .badIndex
  | some x =>
    if x.retiring then s.finish c .badIndex
    else
      let s := s.modSrv n fun v => { v with idxCmds := v.idxCmds ++ [{ cmd := c, handle := h, run := .wait }] }
      let s := if c.op = 0x23 then s.modSrv n fun v => v.modIndex h fun x => { x with retiring := true } else s
      s.pumpIdx n

/-! ### Sweeps (R214, R215) -/

/-- An adjacency list, the slots of a poisoned line empty (R201). -/
def State.cleanAdj (s : State) (f : Fn) (x : Index) (sh : Shard) (k : Nat) : List Nat := (List.range (x.d / 16)).flatMap fun i => (s.adjLine f x sh k i).1
/-- Is a node dead at an epoch (Table 8.2), by a META line that is not poisoned? -/
def State.deadAt (s : State) (f : Fn) (sh : Shard) (e k : Nat) : Bool :=
  let m := s.nodeMeta f sh k
  decide (k < sh.cap) && !s.poisoned f (sh.metaB + 16 * k) 16 && decide (m.birth ≠ noEpoch) && decide (m.birth ≤ m.death) && decide (m.death ≤ e)
/-- The replacement of a marked identifier in a list (step 2): the node nearest the owner among the marked node's live neighbours that the list does not hold; of two at
one distance, the lower (R190). -/
def State.sweepPick (s : State) (f : Fn) (x : Index) (sh : Shard) (owner : Nat) (l : List Nat) (m : Nat) : Nat :=
  let oc := s.nodeCode f x sh owner
  let bad := fun (r : Nat × Nat) => s.poisoned f r.1 r.2
  let cands := (s.cleanAdj f x sh m).filter fun k =>
    decide (k < sh.cap) && !l.contains k && !bad (sh.metaRange k) && (s.nodeMeta f sh k).live x.epoch && !bad (sh.codeRange x k)
  let dist := fun n => hamming x.w oc (s.nodeCode f x sh n)
  if bad (sh.codeRange x owner) then noNode
  else match cands with
  | [] => noNode
  | k :: ks => ks.foldl (fun b n => if dist n < dist b ∨ (dist n = dist b ∧ n < b) then n else b) k
/-- Repair one list, slot by slot. -/
def State.sweepList (s : State) (f : Fn) (x : Index) (sh : Shard) (emin owner : Nat) (l : List Nat) : List Nat :=
  (List.range l.length).foldl (fun l i => let m := l.getD i noNode; if s.deadAt f sh emin m then l.set i (s.sweepPick f x sh owner l m) else l) l
/-- What the repair of a list reads. -/
def State.sweepReads (s : State) (f : Fn) (x : Index) (sh : Shard) (emin owner : Nat) (l : List Nat) : List (Nat × Nat) :=
  let marked := l.filter fun m => s.deadAt f sh emin m
  (l.filter fun m => decide (m < sh.cap)).map sh.metaRange ++ (if marked.isEmpty then [] else [sh.codeRange x owner]) ++ marked.flatMap fun m =>
    sh.adjRange x m :: ((s.cleanAdj f x sh m).filter fun k => decide (k < sh.cap)).flatMap fun k => [sh.metaRange k, sh.codeRange x k]
/-- Reads of a command: one that meets a poisoned line raises POISON. -/
def State.maintReads (s : State) (f : Fn) (die : Die) (l : List (Nat × Nat)) : State :=
  let s' := s.noteReads f l die
  if l.any fun r => s.poisoned f r.1 r.2 then s'.raise .src 0x1 else s'

/-- The repair of node `k`'s list: each slot that changes is written. -/
def State.repairNode (s : State) (f : Fn) (x : Index) (sh : Shard) (emin k : Nat) : State :=
  let l := s.cleanAdj f x sh k
  let l' := s.sweepList f x sh emin k l
  let t := s.maintReads f sh.die (sh.metaRange k :: sh.adjRange x k :: s.sweepReads f x sh emin k l)
  (List.range l.length).foldl (fun t i => if l.getD i noNode = l'.getD i noNode then t else t.writeMem f (sh.adj + k * (4 * x.d) + 4 * i) (toBytesLE 4 (l'.getD i noNode)) sh.die) t
/-- A marked node is freed: its list is all empty. -/
def State.freeNode (s : State) (f : Fn) (x : Index) (sh : Shard) (k : Nat) : State :=
  (s.writeMem f (sh.metaB + 16 * k) (NodeMeta.bytes { (s.nodeMeta f sh k) with birth := noEpoch }) sh.die).writeMem f (sh.adj + k * (4 * x.d))
    (adjBytes (List.replicate x.d noNode)) sh.die

/-- One step of a sweep on its shard: nodes 0 to CAPACITY − 1 repair their lists, then the entry points are repaired, then marked nodes are freed and dead ones left
behind are counted. A node that is itself marked loses its list, which is not repaired. -/
def State.sweepStep (s : State) (n : StallId) (x : Index) (sh : Shard) (r : SweepRun) : State × SweepRun :=
  let f := vfOf n
  let on := { r with at_ := r.at_ + 1 }
  if r.at_ < sh.cap then (if s.deadAt f sh r.emin r.at_ then s.maintReads f sh.die [sh.metaRange r.at_] else s.repairNode f x sh r.emin r.at_, on)
  else if r.at_ = sh.cap then
    let es := (List.range 4).foldl (fun (es : List Nat) j => let p := es.getD j noNode; if s.deadAt f sh r.emin p then es.set j (s.sweepPick f x sh p es p) else es) sh.entries
    let t := sh.entries.foldl (fun t p => if p < sh.cap then t.maintReads f sh.die (s.sweepReads f x sh r.emin p [p]) else t) s
    (t.modSrv n fun v => v.modIndex x.handle fun x => { x with shards := listModify (fun sh => { sh with entries := es }) r.shard x.shards }, on)
  else
    let k := r.at_ - sh.cap - 1
    let t := s.maintReads f sh.die [sh.metaRange k]
    if s.deadAt f sh r.emin k then (t.freeNode f x sh k, { on with freed := r.freed + 1 })
    else (t, if s.deadAt f sh x.epoch k then { on with later := r.later + 1 } else on)

/-- The steps of a sweep on a shard. -/
def Shard.sweepSteps (sh : Shard) : Nat := 2 * sh.cap + 1

end Sys2Proof.Machine
end

