-- ==== Sys2Proof/Machine/CmdGather.lean ====
section
/-! DEFINITION. Tables, the table commands when they start, fetch entries, the coalescing window and what a row read does (R235–R260). -/
namespace Sys2Proof.Machine

def Serving.table? (v : Serving) (h : Nat) : Option Table := v.keep.tables.find? fun x => x.handle = h
def Serving.modTable (v : Serving) (h : Nat) (g : Table → Table) : Serving := { v with keep := { v.keep with tables := v.keep.tables.map fun x => if x.handle = h then g x else x } }
def State.gthRun (s : State) : Bool := (s.reg .gth 0x000).getLsbD 0
/-- Bytes of the assembled row (R240). -/
def Table.fullRow (t : Table) : Nat := if t.parts.isEmpty then t.rowBytes else (t.parts.map (·.bytes)).sum
def Table.mapBytes (t : Table) : Nat := 16 * t.rows + 4 * (t.slots - t.rows)

/-! ### TBL_REGISTER (R236, R237, R240, R257) -/

def partOrder (a b : Part) : Bool := decide (a.off ≤ b.off)
def insertPart (x : Part) : List Part → List Part
  | [] => [x]
  | y :: ys => if partOrder x y then x :: y :: ys else y :: insertPart x ys
/-- Do the parts tile a row from byte 0 without gap or overlap? -/
def partsTile : Nat → List Part → Bool
  | _, [] => true
  | o, p :: ps => decide (p.off = o) && decide (p.bytes ≠ 0) && decide (p.bytes % 64 = 0) && partsTile (o + p.bytes) ps

/-- The part list of a split table; none where Table 10.3 or R240 is broken: each remote part is on a module to which the Stall is bound. -/
def State.partsOf (s : State) (n : StallId) (a k rowBytes : Nat) : Option (List Part) :=
  let f := vfOf n
  if !addrOk a ∨ !s.covered f a (16 * k) then none
  else
    let l := (List.range k).map fun i => s.readMem f (a + 16 * i) 16
    let ps := l.map fun b => (⟨bytesField b 0 1, bytesField b 1 1, bytesField b 4 4, bytesField b 8 4⟩ : Part)
    let own := ps.filter fun p => p.module_ = s.moduleId
    let unbound := fun (p : Part) => decide (p.module_ ≠ s.moduleId) && (decide (63 < p.handle) || (s.boundStall n p.module_).isNone)
    if l.any (fun b => !bytesZero b 2 2 || !bytesZero b 12 4) || own.length ≠ 1 || own.any (fun p => p.bytes ≠ rowBytes) || ps.any unbound || !partsTile 0 (ps.foldr insertPart []) then none else some ps

/-- PASSAGE shard entries (Table 10.2). -/
def State.passShards (s : State) (f : Fn) (a k : Nat) : Option (List PassShard) :=
  if !addrOk a ∨ !s.covered f a (32 * k) then none
  else (List.range k).mapM fun i =>
    let b := s.readMem f (a + 32 * i) 32
    let u := bytesField b
    if u 0 1 < 4 ∧ bytesZero b 1 3 ∧ bytesZero b 0x18 8 ∧ u 8 8 % 4096 = 0 ∧ u 0x10 8 % 4096 = 0 ∧ addrOk (u 8 8) ∧ addrOk (u 0x10 8) ∧ s.covered f (u 8 8) (8 * u 4 4) ∧
        (s.allocAt f (u 0x10 8)).isSome then
      some (⟨Fin.ofNat 4 (u 0 1), u 4 4, u 8 8, u 0x10 8⟩ : PassShard)
    else none

/-- Do two areas, address and bytes, overlap? -/
def areasMeet (x y : Nat × Nat) : Bool := decide (x.1 < y.1 + y.2) && decide (y.1 < x.1 + x.2)
/-- Do two of a list of areas overlap? -/
def areasMeetAll : List (Nat × Nat) → Bool
  | [] => false
  | x :: xs => xs.any (areasMeet x) || areasMeetAll xs
/-- The areas of PASSAGE shards. The descriptor gives token data a base and no length: it counts as its first token (log 85). -/
def shardAreas (l : List PassShard) : List (Nat × Nat) := l.flatMap fun x => [(x.offs, 8 * x.cap), (x.tok, 4)]

/-- A table descriptor (Table 10.1); none where a field breaks the tables or R240. -/
def State.tableOf (s : State) (n : StallId) (b : List Byte) (h : Nat) : Option Table :=
  let f := vfOf n
  let u := bytesField b
  let t : Table := { handle := h, passage := u 0 1 = 2, ty := BitVec.ofNat 4 (u 1 1), die := Fin.ofNat 4 (u 2 1), rowBytes := u 4 4, rows := u 8 4, slots := u 0x0C 4,
                     map := u 0x10 8, data := u 0x18 8, parts := [], shards := [], version := 0, free := [], old := [], ready := false, retiring := false }
  if !bytesZero b 0x28 24 then none
  else if u 0 1 = 1 then
    let ok := [0, 1, 2, 3, 4, 5, 7, 8, 9, 10, 11, 12].contains (u 1 1) && decide (u 2 1 < 4) && decide (1 ≤ u 3 1) && decide (u 3 1 ≤ 16) && decide (64 ≤ t.rowBytes) &&
      decide (t.rowBytes ≤ 16384) && decide (t.rowBytes % 64 = 0) && decide (1 ≤ t.rows) && decide (t.rows ≤ 0xFFFFFFFE) && decide (t.rows ≤ t.slots) &&
      decide (t.slots ≤ 0xFFFFFFFE) && decide (t.map % 4096 = 0) && decide (t.data % 4096 = 0) && addrOk t.map && addrOk t.data && s.writable f t.map t.mapBytes &&
      s.covered f t.data (t.slots * t.rowBytes) && !areasMeet (t.map, t.mapBytes) (t.data, t.slots * t.rowBytes)
    if !ok then none
    else if u 3 1 = 1 then some t
    else (s.partsOf n (u 0x20 8) (u 3 1) t.rowBytes).map fun ps => { t with parts := ps }
  else if u 0 1 = 2 then
    if u 1 1 = 5 ∧ u 3 1 = 1 ∧ 1 ≤ t.rows ∧ t.rows ≤ 256 then (s.passShards f (u 0x20 8) t.rows).bind fun l => if areasMeetAll (shardAreas l) then none else some { t with shards := l, ready := true } else none
  else none

/-- The areas of a table that must not overlap those of another. -/
def Table.areas (t : Table) : List (Nat × Nat) := if t.passage then shardAreas t.shards else [(t.map, t.mapBytes), (t.data, t.slots * t.rowBytes)]
def areasMeetAny (l m : List (Nat × Nat)) : Bool := l.any fun x => m.any (areasMeet x)

/-- The checks of TBL_REGISTER in their order (R237, R257): the table, or the status with which the command ends. -/
def State.tableCheck (s : State) (n : StallId) (c : Cmd) : Except Code Table :=
  let v := s.serving[n]
  let f := vfOf n
  let a := c.u 0x10 8
  if !addrOk a ∨ !s.covered f a 64 then .error .badDesc
  else if s.poisoned f a 64 then .error .poison
  else match s.pick (freeNumbers 64 fun i => v.keep.tables.any fun x => x.handle = i) with
    | none => .error .quota
    | some h =>
      match s.tableOf n (s.readMem f a 64) h with
      | none => .error .badTable
      | some t => if v.keep.tables.any fun x => areasMeetAny t.areas x.areas then .error .badTable else .ok t
/-- TBL_REGISTER: a PASSAGE table is registered at once, a ROWS table when its map is written. -/
def State.startTblRegister (s : State) (n : StallId) (c : Cmd) : State :=
  match s.tableCheck n c with
  | .error st => s.finish c st
  | .ok t =>
    let s := s.useFree.modSrv n fun v => { v with keep := { v.keep with tables := v.keep.tables ++ [t] } }
    if t.passage then s.finish c .ok t.handle else s.modSrv n fun v => { v with tblCmds := v.tblCmds ++ [{ cmd := c, handle := t.handle, run := .mapping 0 }] }

/-! ### The row map (R237) -/

structure MapEntry where
  cur : Nat
  prev : Nat
  chg : Nat
deriving DecidableEq, Repr

def MapEntry.bytes (m : MapEntry) : List Byte := toBytesLE 4 m.cur ++ toBytesLE 4 m.prev ++ toBytesLE 4 m.chg ++ toBytesLE 4 0
def State.mapEntry (s : State) (f : Fn) (t : Table) (r : Nat) : MapEntry :=
  let b := s.readMem f (t.map + 16 * r) 16
  ⟨bytesField b 0 4, bytesField b 4 4, bytesField b 8 4⟩
/-- The slot that a read at version p uses (R253). -/
def MapEntry.slotAt (m : MapEntry) (p : Nat) : Nat := if m.chg ≤ p then m.cur else m.prev
/-- The address of a position of the free-slot list after the map. A position whose slot is in use holds 0xFFFF_FFFF (log 24). -/
def Table.freeAt (t : Table) (p : Nat) : Nat := t.map + 16 * t.rows + 4 * p
/-- The pieces in which the device writes the map of a new ROWS table, the free-slot list after it: address and bytes of piece `k` (R237). -/
def Table.mapPiece (t : Table) (k : Nat) : Nat × List Byte :=
  if k < (t.rows + 4095) / 4096 then
    (t.map + 65536 * k, (List.range (min 4096 (t.rows - 4096 * k))).flatMap fun i => MapEntry.bytes ⟨4096 * k + i, noNode, 0⟩)
  else
    let j := 16384 * (k - (t.rows + 4095) / 4096)
    (t.freeAt j, (List.range (min 16384 (t.slots - t.rows - j))).flatMap fun i => toBytesLE 4 (t.rows + j + i))
def Table.mapPieces (t : Table) : Nat := (t.rows + 4095) / 4096 + (t.slots - t.rows + 16383) / 16384
/-- Write the pieces from `put` on that the map's pages can take now; how many are written then. `fuel`: pieces left. -/
def State.writeMap (s : State) (n : StallId) (t : Table) : Nat → Nat → State × Nat
  | 0, put => (s, put)
  | k + 1, put =>
    let x := t.mapPiece put
    if s.ready (vfOf n) [] [(x.1, x.2.length)] then (s.writeMem (vfOf n) x.1 x.2 t.die).writeMap n t k (put + 1) else (s.seek (vfOf n) t.die [] [(x.1, x.2.length)], put)

/-! ### Replacement (R253–R256) -/

/-- Does anything read at a version below CUR_VERSION: a queued pinned entry, a running job, a pinned batch (R255)? -/
def Serving.oldReads (v : Serving) (t : Table) : Bool :=
  v.jobs.any (fun j => Entry.field j.entry 5 1 = t.handle && Entry.field j.entry 4 1 ≠ 2 && j.version < t.version) ||
    v.reads.any (fun r => r.from_.isSome && r.table = t.handle && r.ver < t.version) ||
    v.queues.any (fun q => q.1 % 16 = 3 && q.2.any fun e => Entry.field e.e 5 1 = t.handle && Entry.field e.e 6 2 % 2 = 1 && e.note < t.version) ||
    v.batches.any (fun b => match b.pins with | some l => l.any (fun x => x.1 = t.handle && x.2 < t.version) | none => false)

def Serving.modTblCmd (v : Serving) (c : Cmd) (run : TblRun) : Serving := { v with tblCmds := v.tblCmds.map fun y => if y.cmd = c then { y with run } else y }
def Serving.dropTblCmd (v : Serving) (c : Cmd) : Serving := { v with tblCmds := v.tblCmds.filter fun y => y.cmd ≠ c }

/-- The record that a replacement deals with next: what it needs of memory, and its result (R254, Table 10.6). -/
inductive RecordWork where
  /-- No row is copied: the result byte. -/
  | result (r : Nat)
  /-- The row is copied into a slot at a position of the free-slot list. -/
  | copy (row pos slot : Nat)
deriving DecidableEq, Repr

/-- The work of record `x.done`. A record or a map entry that is poisoned, or a poisoned source row, reports POISON; a row that a later record names, DUP_ROW. -/
def State.recordWork (s : State) (n : StallId) (c : Cmd) (t : Table) (x : Replacing) : RecordWork :=
  let f := vfOf n
  match x.recs.getD x.done none with
  | none => .result 4
  | some r =>
    if t.rows ≤ r then .result 3
    else if (x.recs.drop (x.done + 1)).contains (some r) then .result 1
    else if s.poisoned f (c.u 0x28 8 + x.done * t.rowBytes) t.rowBytes || s.poisoned f (t.map + 16 * r) 16 then .result 4
    else match t.free with
      | [] => .result 4
      | (p, slot) :: _ => .copy r p slot
/-- What of memory the record's work reads and writes. -/
def Table.recordRanges (t : Table) (c : Cmd) (i : Nat) : RecordWork → List (Nat × Nat) × List (Nat × Nat)
  | .result _ => ([], [(c.u 0x30 8 + i, 1)])
  | .copy r p slot => ([(c.u 0x28 8 + i * t.rowBytes, t.rowBytes), (t.map + 16 * r, 16)],
      [(t.data + slot * t.rowBytes, t.rowBytes), (t.map + 16 * r, 16), (t.freeAt p, 4), (c.u 0x30 8 + i, 1)])
/-- One record is dealt with: the new contents go into a free slot, then the map entry changes in one write (R254). -/
def State.applyRecord (s : State) (n : StallId) (c : Cmd) (t : Table) (x : Replacing) (w : RecordWork) : State × Replacing :=
  let f := vfOf n
  let s := s.noteReads f (t.recordRanges c x.done w).1 t.die
  match w with
  | .result k => (s.writeMem f (c.u 0x30 8 + x.done) [BitVec.ofNat 8 k], { x with done := x.done + 1 })
  | .copy r p slot =>
    let was := s.readMem f (t.map + 16 * r) 16
    let cur := (s.mapEntry f t r).cur
    let s := s.writeMem f (t.data + slot * t.rowBytes) (s.readMem f (c.u 0x28 8 + x.done * t.rowBytes) t.rowBytes) t.die
    let s := (s.writeMem f (t.map + 16 * r) (MapEntry.bytes ⟨slot, cur, t.version + 1⟩) t.die).writeMem f (t.freeAt p) (toBytesLE 4 noNode) t.die
    let s := s.modSrv n fun v => { (v.modTable t.handle fun t => { t with free := t.free.drop 1 }) with
      rowCache := v.rowCache.filter fun y => !(decide (y.table = t.handle) && decide (y.key = slot)) }
    (s.writeMem f (c.u 0x30 8 + x.done) [0], { x with done := x.done + 1, changed := x.changed ++ [⟨r, was, p, slot⟩], old := x.old ++ [(p, cur)] })

/-- One step of a running replacement: an old slot returns to the free-slot list (R255), or a record is dealt with; none while GTH_CTRL.RUN is 0 (R261), the Stall's
engines have no turn, or memory holds it back. -/
def State.replaceStep (s : State) (n : StallId) (c : Cmd) (h : Nat) (x : Replacing) : State × Option Replacing :=
  let f := vfOf n
  match (s.serving[n]).table? h with
  | none => (s, none)
  | some t =>
    if !s.gthRun || !s.works n || s.halted then (s, none)
    else match x.back with
      | (p, slot) :: rest =>
        if s.ready f [] [(t.freeAt p, 4)] then
          ((s.writeMem f (t.freeAt p) (toBytesLE 4 slot) t.die).modSrv n fun v => v.modTable h fun t => { t with free := t.free ++ [(p, slot)] }, some { x with back := rest })
        else (s.seek f t.die [] [(t.freeAt p, 4)], none)
      | [] =>
        if x.recs.length ≤ x.done then (s, none)
        else
          let src := [(c.u 0x28 8 + x.done * t.rowBytes, t.rowBytes)]
          let w := s.recordWork n c t x
          let l := t.recordRanges c x.done w
          if s.ready f l.1 l.2 then let r := s.applyRecord n c t x w; (r.1, some r.2) else (s.seek f t.die (src ++ l.1) l.2, none)
/-- A running replacement goes on as far as it can; with its last record it awaits the boundary. `fuel` bounds its steps. -/
def State.replaceOn (s : State) (n : StallId) (c : Cmd) (h : Nat) (x : Replacing) : Nat → State
  | 0 => s
  | k + 1 =>
    let r := s.replaceStep n c h x
    match r.2 with
    | some y =>
      let done := y.back.isEmpty && decide (y.recs.length ≤ y.done)
      let s := r.1.modSrv n fun v => v.modTblCmd c (if done then .applied y else .running y)
      if done then s else s.replaceOn n c h y k
    | none => r.1

/-- A replacement whose turn has come and whose conditions hold starts: the old slots are free, and its rows follow (R255). -/
def State.runReplace (s : State) (n : StallId) (c : Cmd) (t : Table) : State :=
  let f := vfOf n
  let k := c.u 0x20 4
  let l := [(c.u 0x18 8, 8 * k)]
  if !s.ready f l [] then s.seek f t.die l []
  else if t.free.length + t.old.length < k then (s.modSrv n fun v => v.dropTblCmd c).finish c .quota
  else
    let recs := (List.range k).map fun i => if s.poisoned f (c.u 0x18 8 + 8 * i) 8 then none else some (s.readNat f (c.u 0x18 8 + 8 * i) 8)
    let x : Replacing := { back := t.old, recs, done := 0, changed := [], old := [] }
    ((s.noteReads f l t.die).modSrv n fun v => (v.modTable t.handle fun t => { t with old := [] }).modTblCmd c (.running x)).replaceOn n c t.handle x (t.old.length + k)

/-- Does a fetch entry, job or command of the table still stand (TBL_RETIRE)? -/
def Serving.tableQuiet (v : Serving) (h : Nat) : Bool := !(v.jobs.any fun j => Entry.field j.entry 5 1 = h) && !v.reads.any fun r => r.from_.isSome && r.table = h

/-- Begin or go on with the command at the head of a table's list (R257). `started`: a waiting replacement may start. -/
def State.beginTbl (s : State) (n : StallId) (y : TblCmd) : State :=
  let v := s.serving[n]
  let c := y.cmd
  match v.table? y.handle with
  | none => (s.modSrv n fun v => v.dropTblCmd c).finish c .badTable
  | some t =>
    if c.op = 0x29 then (if s.gthRun && !v.oldReads t then s.runReplace n c t else s)
    else if v.tableQuiet y.handle then
      (s.modSrv n fun v => let v := v.dropTblCmd c; { v with keep := { v.keep with tables := v.keep.tables.filter fun x => x.handle ≠ y.handle }, rowCache := v.rowCache.filter fun x => x.table ≠ y.handle }).finish c .ok
    else s

/-- Go on with the command at the head of a table's list, unless it runs. -/
def State.headTbl (s : State) (n : StallId) (h : Nat) : State :=
  match (s.serving[n]).tblCmds.find? (fun z => z.handle = h) with
  | some z => if (match z.run with | .wait => true | .retire => true | _ => false) = true then s.beginTbl n z else s
  | none => s
/-- Retirements that nothing holds back any longer end, and running replacements go on. A waiting one starts by an event of its own (TBL_REPLACE_START). -/
def State.pumpTables (s : State) (n : StallId) : State :=
  (s.serving[n]).tblCmds.foldl (fun s y =>
    match (s.serving[n]).tblCmds.find? (fun z => z.handle = y.handle), y.run with
    | some z, .retire => if z.cmd = y.cmd then s.beginTbl n z else s
    | some _, .running x => s.replaceOn n y.cmd y.handle x (x.back.length + (x.recs.length - x.done))
    | _, _ => s) s

/-- TBL_REPLACE and TBL_RETIRE (R254, R255, R257). -/
def State.startTblCmd (s : State) (n : StallId) (c : Cmd) : State :=
  let v := s.serving[n]
  let f := vfOf n
  let h := c.u 0x10 4
  match v.table? h with
  | none => s.finish c .badTable
  | some t =>
    if t.retiring || !t.ready then s.finish c .badTable
    else if c.op = 0x29 then
      let k := c.u 0x20 4
      if t.passage then s.finish c .badTable
      else if k = 0 ∨ 65536 < k ∨ !(addrOk (c.u 0x18 8) && addrOk (c.u 0x28 8) && addrOk (c.u 0x30 8)) ∨ !s.covered f (c.u 0x18 8) (8 * k) ∨
          !s.covered f (c.u 0x28 8) (t.rowBytes * k) ∨ !s.writable f (c.u 0x30 8) k then s.finish c .badDesc
      else if !s.writable f t.data (t.slots * t.rowBytes) then s.finish c .badTable
      else (s.modSrv n fun v => { v with tblCmds := v.tblCmds ++ [{ cmd := c, handle := h, run := .wait }] }).headTbl n h
    else (s.modSrv n fun v => { (v.modTable h fun t => { t with retiring := true }) with tblCmds := v.tblCmds ++ [{ cmd := c, handle := h, run := .retire }] }).pumpTables n

/-! ### Completions of fetch entries (R246) -/

/-- FLAGS of Table 10.5. -/
def gfRange : BitVec 16 := 1
def gfPoison : BitVec 16 := 2
def gfRemote : BitVec 16 := 4
def gfTrunc : BitVec 16 := 8
def gfBadArg : BitVec 16 := 16
def gfNoTable : BitVec 16 := 32

def GJob.op (j : GJob) : Nat := Entry.field j.entry 4 1
def GJob.table (j : GJob) : Nat := Entry.field j.entry 5 1
def GJob.count (j : GJob) : Nat := Entry.field j.entry 0x10 3
def GJob.uniq (j : GJob) : Bool := Entry.field j.entry 6 2 / 2 % 2 = 1
def GJob.dst (j : GJob) : Nat := Entry.field j.entry 0x18 6
def GJob.stride (j : GJob) : Nat := Entry.field j.entry 0x28 4
def GJob.aux (j : GJob) : Nat := Entry.field j.entry 0x20 6

/-- A gather completion queue entry (Table 10.5). -/
def State.gatherEntry (s : State) (j : GJob) : Entry :=
  let flags := j.flags ||| (if j.rangeN = 0 then 0 else gfRange)
  entryOfBytes (toBytesLE 4 j.tag.toNat ++ toBytesLE 1 j.op ++ toBytesLE 1 j.table ++ toBytesLE 2 flags.toNat ++ toBytesLE 4 (Entry.field j.entry 0x10 4) ++
    toBytesLE 4 (if j.uniq then j.nord else j.reads) ++ toBytesLE 4 j.hits ++ toBytesLE 4 j.rangeN ++ toBytesLE 4 j.fillN ++ toBytesLE 4 j.rmiss ++
    toBytesLE 4 j.version ++ toBytesLE 4 ((s.now - j.took) / usBclk) ++ toBytesLE 6 j.dst ++ List.replicate 18 0)

def Serving.modJob (v : Serving) (i : Nat) (g : GJob → GJob) : Serving := { v with jobs := v.jobs.map fun j => if j.id = i then g j else j }
def Serving.job? (v : Serving) (i : Nat) : Option GJob := v.jobs.find? fun j => j.id = i

/-- The home of the request that a job serves (R16, R246). -/
def State.jobHome (s : State) (n : StallId) (j : GJob) : Die := match (s.serving[n]).req? j.tag with | some q => q.home | none => j.die
/-- Post a job's completion entry, or hold it for a full share. -/
def State.postGather (s : State) (n : StallId) (j : GJob) (e : Entry) (first : Bool) : State :=
  match s.tryPush n (s.jobHome n j) 4 e with
  | some s =>
    let s := s.modSrv n fun v => { v with jobs := v.jobs.filter fun x => x.id ≠ j.id }
    ((s.count (some n) 0x050 j.count).count (some n) 0x053 j.rmiss).pumpTables n
  | none =>
    let s := s.modSrv n fun v => v.modJob j.id fun j => { j with held := some e }
    if first then (s.raise .gth 0x4).count (some n) 0x034 1 else s

/-- Every request of the entry has completed. -/
def State.jobCheck (s : State) (n : StallId) (i : Nat) : State :=
  match (s.serving[n]).job? i with
  | some j => if j.held.isNone ∧ j.next = j.count ∧ j.done = j.count then s.postGather n j (s.gatherEntry j) true else s
  | none => s

/-! ### Fetch entries (R243) -/

/-- Why the check of R243 fails: no table, or a bad argument. -/
inductive FetchCheck where
  | noTable | badArg | ok
deriving DecidableEq, Repr

def State.fetchCheck (s : State) (n : StallId) (e : Entry) : FetchCheck :=
  let f := vfOf n
  let u := Entry.field e
  match (s.serving[n]).table? (u 5 1) with
  | none => .noTable
  | some t =>
    if t.retiring || !t.ready then .noTable
    else
      let op := u 4 1
      let count := u 0x10 3
      let dst := u 0x18 6
      let stride := u 0x28 4
      let aux := u 0x20 6
      let uniq := u 6 2 / 2 % 2 = 1
      let bad := decide (op = 0 ∨ 3 < op) || decide (count = 0) || decide (63 < u 5 1) || (decide uniq && decide (op ≠ 1)) || (t.passage != decide (op = 2)) ||
        decide (u 8 6 % 64 ≠ 0) || decide (dst % 64 ≠ 0) || !s.covered f (u 8 6) (count * (if op = 2 then 8 else 4)) ||
        (decide (op ≠ 3) && (decide (stride % 64 ≠ 0) || !s.writable f dst (count * stride))) ||
        (decide (op = 1) && decide (stride < t.fullRow)) ||
        (decide (op = 2) && (decide (u 0x14 4 = 0 ∨ 65535 < u 0x14 4) || decide (stride < 8 + 4 * u 0x14 4))) ||
        (decide (op = 3) && (decide (t.ty ≠ 8 ∧ t.ty ≠ 7) || !t.parts.isEmpty || !s.covered f aux (count * t.rowBytes) || !s.writable f t.data (t.slots * t.rowBytes))) ||
        (decide uniq && !s.writable f aux (4 * count)) || (!decide uniq && decide (op ≠ 3) && decide (aux ≠ 0))
      if bad then .badArg else .ok

/-! ### The window and the rows (R244–R250, R260) -/

/-- Bytes go to a destination, with a mark on each 64-byte block of it that takes one of the poisoned pieces `bad`, `size` bytes each (R260). -/
def State.putMarked (s : State) (f : Fn) (die : Die) (dst : Nat) (bs : List Byte) (bad : List Nat) (size : Nat) : State :=
  bad.foldl (fun s i => s.markMem f (dst + size * i)) (s.writeMem f dst bs die)

/-- Where the result of index `i` goes when it is written for no slot: a zero row, with an ordinal of its own under UNIQ; a sequence of length 0 for PASSAGE. -/
def GJob.zeroRanges (j : GJob) (t : Table) (i : Nat) : List (Nat × Nat) :=
  match j.op with
  | 1 => if j.uniq then [(j.dst + j.nord * j.stride, t.fullRow), (j.aux + 4 * i, 4)] else [(j.dst + i * j.stride, t.fullRow)]
  | 2 => [(j.dst + i * j.stride, 8)]
  | _ => []
def State.zeroRow (s : State) (n : StallId) (j : GJob) (t : Table) (i : Nat) : State :=
  let f := vfOf n
  match j.op with
  | 1 =>
    if j.uniq then
      ((s.writeMem f (j.dst + j.nord * j.stride) (List.replicate t.fullRow 0) j.die).writeMem f (j.aux + 4 * i) (toBytesLE 4 j.nord) j.die).modSrv n fun v =>
        v.modJob j.id fun j => { j with nord := j.nord + 1 }
    else s.writeMem f (j.dst + i * j.stride) (List.replicate t.fullRow 0) j.die
  | 2 => s.writeMem f (j.dst + i * j.stride) (List.replicate 8 0) j.die
  | _ => s

def State.jobDone (s : State) (n : StallId) (i : Nat) (g : GJob → GJob) : State := s.modSrv n fun v => v.modJob i fun j => g { j with done := j.done + 1 }

/-! ### The row cache (R251, R252) -/

/-- The counters that an item has in the sketch of an engine. -/
def sketchKeys (d : Die) (e table key : Nat) : List Nat := (List.range 4).map fun i => ((d.val * 16 + e) * 4 + i) * 4096 + Config.sketchHash i table key % 4096
/-- An item's estimate: the least of its four counters. -/
def Serving.estimate (v : Serving) (d : Die) (e table key : Nat) : Nat := (sketchKeys d e table key).foldl (fun m k => min m (mapGet 0 v.sketch k)) 255
/-- A request increments its item's counters, which saturate. -/
def Serving.counted (v : Serving) (d : Die) (e table key : Nat) : Serving :=
  { v with sketch := (sketchKeys d e table key).foldl (fun m k => mapSet 0 m k (min 255 (mapGet 0 m k + 1))) v.sketch }
/-- Every counter halves. -/
def Serving.halveSketch (v : Serving) : Serving := { v with sketch := v.sketch.filterMap fun x => if x.2 / 2 = 0 then none else some (x.1, x.2 / 2) }

/-- Does a row cache of the Stall hold an item? -/
def Serving.cached (v : Serving) (d : Die) (table key : Nat) : Bool := v.rowCache.any fun x => x.die = d && x.table = table && x.key = key
/-- Of the items of a set, that of the lowest estimate. -/
def Serving.leastCounted (v : Serving) (l : List RowItem) : Option RowItem :=
  l.foldl (fun m x => match m with
    | some y => if v.estimate x.die x.engine x.table x.key < v.estimate y.die y.engine y.table y.key then some x else some y
    | none => some x) none
/-- A read missed: its item is admitted while the row cache on its B-die, RCWAYS ways of 6 MiB of those the Stall holds there, has room; else in place of the least
counted item of its set, if its own estimate is no lower (log 25). -/
def State.takeRow (s : State) (n : StallId) (x : RowItem) : State :=
  let v := s.serving[n]
  let mine := v.rowCache.filter fun y => y.die = x.die
  let room := 6291456 * (s.rowWays n x.die.val).length
  let used := (mine.map (·.size)).sum
  if used + x.size ≤ room then s.modSrv n fun v => { v with rowCache := v.rowCache ++ [x] }
  else match v.leastCounted (mine.filter fun y => Config.rowSet y.table y.key = Config.rowSet x.table x.key) with
    | some y =>
      if v.estimate y.die y.engine y.table y.key ≤ v.estimate x.die x.engine x.table x.key ∧ used - y.size + x.size ≤ room then
        s.modSrv n fun v => { v with rowCache := v.rowCache.filter (· ≠ y) ++ [x] }
      else s
    | none => s

/-! ### The window -/

/-- Requests of the Stall in an engine's window; its share is 256 (R247). -/
def Serving.windowUsed (v : Serving) (d : Die) (e : Nat) : Nat := (v.reads.map fun r => if r.die = d ∧ r.engine = e then r.reqs.length else 0).sum

/-- Send a request to its home engine: it attaches to a read in the window that has not brought its bytes, or makes one; none while the share is full. -/
def State.sendReq (s : State) (n : StallId) (j : GJob) (i : Nat) (d : Die) (eng key row add : Nat) : Option State :=
  let v := s.serving[n]
  let sc := j.op = 3
  let adds := if sc then [(j.id, add)] else []
  let same := fun (r : GRead) => r.die = d && r.engine = eng && r.table = j.table && r.key = key && r.scatter == decide sc && !(r.scatter && r.started) && r.data.isNone && r.from_.isNone
  if 256 ≤ v.windowUsed d eng then none
  else
    let s := s.modSrv n fun v => v.counted d eng j.table key
    if v.reads.any same then
      some ((s.modSrv n fun v => { v with reads := v.reads.map fun r => if same r then { r with reqs := r.reqs ++ [(j.id, i)], adds := r.adds ++ adds } else r }).count (some n) 0x052 1)
    else
      let r : GRead := { die := d, engine := eng, table := j.table, key, row, scatter := sc, owner := j.id, reqs := [(j.id, i)], started := false, missing := [], got := [], timedOut := false,
                         adds, data := none, from_ := none, ver := j.version }
      some (s.modSrv n fun v => { v with reads := v.reads ++ [r] })

/-- Write an ordinal given before for a slot under UNIQ (R248). -/
def GJob.ordOf (j : GJob) (eng key : Nat) : Option Nat := (j.ords.find? fun x => x.1 = eng && x.2.1 = key).map (·.2.2)

/-- What an index of a job comes to (R244, R253, R260). -/
inductive IndexWork where
  /-- Out of range, with the flags it sets beside RANGE. -/
  | range (flags : BitVec 16)
  | fill
  /-- The slot's ordinal under UNIQ is known. -/
  | ordinal (o : Nat)
  | send (d : Die) (eng key row : Nat)
deriving DecidableEq, Repr

/-- The number in the index list, and the map entry that it takes the engine to. -/
def GJob.indexSize (j : GJob) : Nat := if j.op = 2 then 8 else 4
def GJob.indexAt (j : GJob) (i : Nat) : Nat := Entry.field j.entry 8 6 + j.indexSize * i
/-- The map entry that the home engine of index `i` is found with; none for PASSAGE and for an index out of range. -/
def State.indexMap (s : State) (n : StallId) (j : GJob) (t : Table) (i : Nat) : Option Nat :=
  let f := vfOf n
  if j.op = 2 || s.poisoned f (j.indexAt i) 4 || decide (t.rows ≤ s.readNat f (j.indexAt i) 4) then none else some (t.map + 16 * s.readNat f (j.indexAt i) 4)
/-- What index `i` of a job comes to. A slot that the table does not have is out of range (R23, log 85). -/
def State.indexWork (s : State) (n : StallId) (j : GJob) (t : Table) (i : Nat) : IndexWork :=
  let f := vfOf n
  if s.poisoned f (j.indexAt i) j.indexSize then .range gfPoison
  else if j.op = 2 then
    let pid := s.readNat f (j.indexAt i) 5
    if pid = 0xFFFFFFFFFF then .fill
    else match t.shards[pid / 2 ^ 32]? with
      | some x => if x.cap ≤ pid % 2 ^ 32 then .range 0 else .send x.die ((pid % 2 ^ 32 + t.handle) % 16) pid 0
      | none => .range 0
  else
    let r := s.readNat f (j.indexAt i) 4
    if t.rows ≤ r then .range 0
    else if s.poisoned f (t.map + 16 * r) 16 then .range gfPoison
    else
      let m := s.mapEntry f t r
      let eng := (m.cur + t.handle) % 16
      let slot := if j.op = 3 then m.cur else m.slotAt j.version
      if t.slots ≤ slot then .range 0
      else match (if j.uniq then j.ordOf eng slot else none) with
        | some o => .ordinal o
        | none => .send t.die eng slot r

/-- Send index `i` of a job; none where the window share is full, or memory holds it back. -/
def State.sendIndex (s : State) (n : StallId) (j : GJob) (t : Table) (i : Nat) : Option State :=
  let f := vfOf n
  let map := (s.indexMap n j t i).toList.map fun a => (a, 16)
  if !s.ready f map [] then none
  else
    let w := s.indexWork n j t i
    let out := match w with | .range _ => j.zeroRanges t i | .fill => j.zeroRanges t i | .ordinal _ => [(j.aux + 4 * i, 4)] | .send _ _ _ _ => []
    if !s.ready f [] out then none
    else
      let s := s.noteReads f map j.die
      match w with
      | .range flag =>
        let s := if flag = 0 then s else s.raise .gth 0x1
        some ((s.zeroRow n j t i).jobDone n j.id fun j => { j with rangeN := j.rangeN + 1, flags := j.flags ||| flag })
      | .fill => some ((s.zeroRow n j t i).jobDone n j.id fun j => { j with fillN := j.fillN + 1 })
      | .ordinal o => some ((s.writeMem f (j.aux + 4 * i) (toBytesLE 4 o) j.die).jobDone n j.id id)
      | .send d eng key row => s.sendReq n j i d eng key row (j.aux + i * t.rowBytes)
/-- What an index that was not sent waits for of memory is asked. -/
def State.seekIndex (s : State) (n : StallId) (j : GJob) (t : Table) (i : Nat) : State :=
  s.seek (vfOf n) j.die ((s.indexMap n j t i).toList.map fun a => (a, 16)) (j.zeroRanges t i)

/-- Send the next indices of a job, up to `fuel`, until one is held back. -/
def State.sendIndices (s : State) (n : StallId) (id : Nat) : Nat → State
  | 0 => s
  | k + 1 =>
    let v := s.serving[n]
    match v.job? id with
    | none => s
    | some j =>
      match v.table? j.table with
      | none => s
      | some t =>
        if j.count ≤ j.next then s
        else match s.sendIndex n j t j.next with
          | some s => (s.modSrv n fun v => v.modJob id fun j => { j with next := j.next + 1 }).sendIndices n id k
          | none => s.seekIndex n j t j.next

/-- Remember an ordinal: the last 4,096 distinct slots of an engine (R248). -/
def GJob.addOrd (j : GJob) (eng key o : Nat) : GJob :=
  let l := (eng, key, o) :: j.ords
  let mine := l.filter fun x => x.1 = eng
  { j with nord := j.nord + 1, ords := if mine.length ≤ 4096 then l else l.filter fun x => x.1 ≠ eng || (mine.take 4096).contains x }

/-! ### Reads (R240, R241, R245, R249–R251, R256) -/

/-- The slot that a read reads: a scatter-add takes CUR_SLOT as it stands when the engine performs it (R256). -/
def State.readSlot (s : State) (n : StallId) (t : Table) (r : GRead) : Nat := if r.scatter then (s.mapEntry (vfOf n) t r.row).cur else r.key
/-- The local row or part that a read reads. -/
def State.readRowAt (s : State) (n : StallId) (t : Table) (r : GRead) : Nat × Nat := (t.data + s.readSlot n t r * t.rowBytes, t.rowBytes)
/-- A read's passage shard and its offset entry. -/
def Table.shardOf (t : Table) (r : GRead) : PassShard := t.shards.getD (r.key / 2 ^ 32) ⟨0, 0, 0, 0⟩
def Table.offsetAt (t : Table) (r : GRead) : Nat := (t.shardOf r).offs + 8 * (r.key % 2 ^ 32)
/-- The sequence that a read's offset entry names: address and length in tokens. -/
def State.sequence (s : State) (n : StallId) (t : Table) (r : GRead) : Nat × Nat :=
  let o := t.offsetAt r
  ((t.shardOf r).tok + 4 * s.readNat (vfOf n) o 5, s.readNat (vfOf n) (o + 5) 2)
/-- Bytes of the item that a read reads, if a row cache may hold it: ROWS slots of up to 4 KiB, sequences of up to 16 KiB (R251). -/
def State.itemSize (s : State) (n : StallId) (t : Table) (r : GRead) : Option Nat :=
  if r.scatter then none
  else if t.passage then (let k := 4 * (s.sequence n t r).2; if k ≤ 16384 then some k else none)
  else if t.rowBytes ≤ 4096 then some t.rowBytes else none
/-- Does the row cache serve a read? -/
def State.readHits (s : State) (n : StallId) (r : GRead) : Bool := !r.scatter && (s.serving[n]).cached r.die r.table r.key
/-- Tokens that a passage read reads: the most that one of its requests takes, or all of a sequence that a row cache may hold. -/
def State.tokensRead (s : State) (n : StallId) (t : Table) (r : GRead) : Nat :=
  let len := (s.sequence n t r).2
  if (s.itemSize n t r).isSome && !(s.rowWays n r.die.val).isEmpty then len
  else r.reqs.foldl (fun m q => match (s.serving[n]).job? q.1 with | some j => max m (min len (Entry.field j.entry 0x14 4)) | none => m) 0
/-- What a read reads of memory, as far as it is known: the map entry of a scatter-add, or an offset entry, names the rest once it can be read. A read that the row
cache serves makes no access for its item. -/
def State.readRanges (s : State) (n : StallId) (t : Table) (r : GRead) : List (Nat × Nat) :=
  let f := vfOf n
  if r.scatter then
    let map := (t.map + 16 * r.row, 16)
    if s.ready f [map] [] then map :: s.readRowAt n t r :: r.adds.map fun a => (a.2, t.rowBytes) else [map]
  else if t.passage then
    let o := (t.offsetAt r, 8)
    if s.ready f [o] [] && !s.poisoned f o.1 8 && !s.readHits n r then
      (let x := ((s.sequence n t r).1, 4 * s.tokensRead n t r); if s.covered f x.1 x.2 then [o, x] else [o])
    else [o]
  else if s.readHits n r then [] else [s.readRowAt n t r]
/-- What a scatter-add writes. -/
def State.readWrites (s : State) (n : StallId) (t : Table) (r : GRead) : List (Nat × Nat) := if r.scatter then [s.readRowAt n t r] else []

/-- Poisoned 64-byte blocks of a range that begins at one, by number. -/
def State.badBlocks (s : State) (f : Fn) (a n : Nat) : List Nat := (List.range ((n + 63) / 64)).filter fun i => s.poisoned f (a + 64 * i) 1
/-- An assembled row (R240): the local part from its slot, remote parts as they arrived, missing ones as zero. -/
def State.rowData (s : State) (n : StallId) (t : Table) (r : GRead) : RowData :=
  let f := vfOf n
  let src := (s.readRowAt n t r).1
  if t.parts.isEmpty then { bytes := s.readMem f src t.rowBytes, bad := s.badBlocks f src t.rowBytes, len := 0, badOff := false, beyond := false }
  else
    let part : Nat → Part → List Byte := fun i p =>
      if p.module_ = s.moduleId then s.readMem f src p.bytes
      else ((match r.got.find? fun x => x.1 = i with | some x => x.2 | none => []) ++ List.replicate p.bytes 0).take p.bytes
    let l := (List.range t.parts.length).zip t.parts
    { bytes := ((l.map fun (x : Nat × Part) => (x.2.off, part x.1 x.2)).foldr insertPiece []).flatMap Prod.snd
      bad := (t.parts.filter fun p => p.module_ = s.moduleId).flatMap fun p => (s.badBlocks f src p.bytes).map fun (i : Nat) => i + p.off / 64
      len := 0, badOff := false, beyond := false }
where
  insertPiece (x : Nat × List Byte) : List (Nat × List Byte) → List (Nat × List Byte)
    | [] => [x]
    | y :: ys => if x.1 ≤ y.1 then x :: y :: ys else y :: insertPiece x ys
/-- A passage (R245): the tokens read, and its full length. One whose tokens lie outside the Stall's allocations is not read (R23, log 85). -/
def State.passageData (s : State) (n : StallId) (t : Table) (r : GRead) : RowData :=
  let f := vfOf n
  if s.poisoned f (t.offsetAt r) 8 then { bytes := [], bad := [], len := 0, badOff := true, beyond := false }
  else
    let x := s.sequence n t r
    let k := s.tokensRead n t r
    if !s.covered f x.1 (4 * k) then { bytes := [], bad := [], len := 0, badOff := false, beyond := true }
    else { bytes := s.readMem f x.1 (4 * k), bad := (List.range k).filter fun i => s.poisoned f (x.1 + 4 * i) 4, len := x.2, badOff := false, beyond := false }

/-- Scatter-add: the addends of the read combined in binary32 in the order they entered, added to the row, rounded once to its type (R249, R256). -/
def State.scatterRow (s : State) (n : StallId) (t : Table) (r : GRead) : State :=
  let f := vfOf n
  let row := (s.readRowAt n t r).1
  let addrs := r.adds.map (·.2)
  let bad := s.poisoned f (t.map + 16 * r.row) 16 || s.poisoned f row t.rowBytes || addrs.any fun a => s.poisoned f a t.rowBytes
  let size := if t.ty = 8 then 4 else 2
  let get := fun (a : Nat) => fdecode (if t.ty = 8 then fmtF32 else fmtBF16) (s.readNat f a size)
  let elem := fun (i : Nat) =>
    match addrs with
    | [] => s.readMem f (row + size * i) size
    | a :: as =>
      let sum := as.foldl (fun x b => toF32 (fadd (f32 x) (get (b + size * i)))) (toF32 (get (a + size * i)))
      toBytesLE size (fencode (if t.ty = 8 then fmtF32 else fmtBF16) (fadd (get (row + size * i)) (f32 sum)))
  let s' := if bad then s.raise .gth 0x1 else s.writeMem f row ((List.range (t.rowBytes / size)).flatMap elem) r.die
  r.reqs.foldl (fun s q => s.jobDone n q.1 fun j => { j with flags := j.flags ||| (if bad then gfPoison else 0) }) s'

/-- A read makes its memory accesses, or none where the row cache serves it: the job that caused it counts it, and the item is admitted (R246, R251, R252). -/
def State.accessRow (s : State) (n : StallId) (t : Table) (r : GRead) : State :=
  let hit := s.readHits n r
  let size := s.itemSize n t r
  let s := s.noteReads (vfOf n) (s.readRanges n t r) r.die
  let s := if hit then (s.count (some n) 0x051 1).modSrv n fun v => { v with nHits := v.nHits + 1 }
    else match size with
      | some k => if (s.rowWays n r.die.val).isEmpty then s else s.takeRow n ⟨r.die, r.engine, r.table, r.key, k⟩
      | none => s
  s.modSrv n fun v => v.modJob r.owner fun j => { j with reads := j.reads + 1, hits := if hit then j.hits + 1 else j.hits }
/-- A read has brought its bytes. A scatter-add is done with them; every other request is then written. -/
def State.bring (s : State) (n : StallId) (t : Table) (r : GRead) : State × GRead :=
  let x : RowData := if r.scatter then ⟨[], [], 0, false, false⟩ else if t.passage then s.passageData n t r else s.rowData n t r
  let s := s.accessRow n t r
  let s := if x.badOff || !x.bad.isEmpty then s.raise .gth 0x1 else s
  let s := if r.scatter then s.scatterRow n t r else s
  (s, { r with data := some x })

/-- Where a request of a read is written. -/
def GJob.reqRanges (j : GJob) (t : Table) (r : GRead) (x : RowData) (i : Nat) : List (Nat × Nat) :=
  if t.passage then [(j.dst + i * j.stride, 8 + 4 * min x.len (Entry.field j.entry 0x14 4))]
  else if j.uniq then (match j.ordOf r.engine r.key with
    | some _ => [(j.aux + 4 * i, 4)]
    | none => [(j.dst + j.nord * j.stride, t.fullRow), (j.aux + 4 * i, 4)])
  else [(j.dst + i * j.stride, t.fullRow)]
/-- Write one attached request of a row read (R245, R248). -/
def State.serveRow (s : State) (n : StallId) (r : GRead) (x : RowData) (j : GJob) (i : Nat) : State :=
  let f := vfOf n
  let mark := fun (j : GJob) =>
    { j with flags := j.flags ||| (if x.bad.isEmpty then 0 else gfPoison) ||| (if r.timedOut then gfRemote else 0), rmiss := if r.timedOut then j.rmiss + 1 else j.rmiss }
  if j.uniq then
    match j.ordOf r.engine r.key with
    | some o => (s.writeMem f (j.aux + 4 * i) (toBytesLE 4 o) r.die).jobDone n j.id mark
    | none =>
      ((s.putMarked f r.die (j.dst + j.nord * j.stride) x.bytes x.bad 64).writeMem f (j.aux + 4 * i) (toBytesLE 4 j.nord) r.die).jobDone n j.id fun j =>
        (mark j).addOrd r.engine r.key j.nord
  else (s.putMarked f r.die (j.dst + i * j.stride) x.bytes x.bad 64).jobDone n j.id mark
/-- Write one attached request of a passage read (R245, R260). -/
def State.servePassage (s : State) (n : StallId) (r : GRead) (x : RowData) (j : GJob) (i : Nat) : State :=
  let f := vfOf n
  let dst := j.dst + i * j.stride
  if x.badOff || x.beyond then
    (s.writeMem f dst (List.replicate 8 0) r.die).jobDone n j.id fun j => { j with rangeN := j.rangeN + 1, flags := j.flags ||| (if x.badOff then gfPoison else 0) }
  else
    let k := min x.len (Entry.field j.entry 0x14 4)
    let bad := x.bad.filter fun t => decide (t < k)
    (s.putMarked f r.die dst (toBytesLE 4 k ++ toBytesLE 4 x.len ++ x.bytes.take (4 * k)) (bad.map (· + 2)) 4).jobDone n j.id fun j =>
      { j with flags := j.flags ||| (if k < x.len then gfTrunc else 0) ||| (if bad.isEmpty then 0 else gfPoison) }
/-- Write the requests of a read in order until one must wait for its destination: those left. -/
def State.serveReqs (n : StallId) (t : Table) (r : GRead) (x : RowData) : List (Nat × Nat) → State → State × List (Nat × Nat)
  | [], s => (s, [])
  | q :: rest, s =>
    match (s.serving[n]).job? q.1 with
    | none => State.serveReqs n t r x rest s
    | some j =>
      let l := j.reqRanges t r x q.2
      if s.ready (vfOf n) [] l then State.serveReqs n t r x rest (if t.passage then s.servePassage n r x j q.2 else s.serveRow n r x j q.2)
      else (s.seek (vfOf n) r.die [] l, q :: rest)
/-- A read that has brought its bytes is written for its requests; with the last, it leaves the window. `was`: the read as the window holds it. -/
def State.finishRead (s : State) (n : StallId) (t : Table) (was r : GRead) (x : RowData) : State :=
  let w := if r.scatter then (s, []) else State.serveReqs n t r x r.reqs s
  let s := w.1.modSrv n fun v => { v with reads := v.reads.filterMap fun z => if z = was then (if w.2.isEmpty then none else some { r with reqs := w.2 }) else some z }
  ((r.reqs.filter fun q => !w.2.contains q).map (·.1)).eraseDups.foldl (fun s i => s.jobCheck n i) s

end Sys2Proof.Machine
end

