-- ==== Sys2Proof/Machine/Unicode.lean ====
section
/-! DEFINITION. UTF-8 decoding, segments, merges: how text becomes tokens (R267–R272). -/
namespace Sys2Proof.Machine

/-! ### UTF-8 (R268, R269) -/

/-- The ranges of the bytes that follow a lead byte in a well-formed sequence of the Unicode Standard; none where the byte begins no sequence. -/
def utf8Tail (b : Nat) : Option (List (Nat × Nat)) :=
  if b < 0x80 then some []
  else if 0xC2 ≤ b ∧ b ≤ 0xDF then some [(0x80, 0xBF)]
  else if b = 0xE0 then some [(0xA0, 0xBF), (0x80, 0xBF)]
  else if b = 0xED then some [(0x80, 0x9F), (0x80, 0xBF)]
  else if 0xE1 ≤ b ∧ b ≤ 0xEF then some [(0x80, 0xBF), (0x80, 0xBF)]
  else if b = 0xF0 then some [(0x90, 0xBF), (0x80, 0xBF), (0x80, 0xBF)]
  else if 0xF1 ≤ b ∧ b ≤ 0xF3 then some [(0x80, 0xBF), (0x80, 0xBF), (0x80, 0xBF)]
  else if b = 0xF4 then some [(0x80, 0x8F), (0x80, 0xBF), (0x80, 0xBF)]
  else none

/-- What stands at the head of a text: a whole character, an invalid byte, or a sequence that is well-formed so far. -/
inductive Utf8 where
  | char (len : Nat)
  | invalid
  | pending
deriving DecidableEq, Repr

def utf8Match : List (Nat × Nat) → List Byte → Nat → Utf8
  | [], _, k => .char k
  | _ :: _, [], _ => .pending
  | r :: rs, b :: bs, k => if r.1 ≤ b.toNat ∧ b.toNat ≤ r.2 then utf8Match rs bs (k + 1) else .invalid

def utf8Head : List Byte → Utf8
  | [] => .pending
  | b :: bs => match utf8Tail b.toNat with
    | some rs => utf8Match rs bs 1
    | none => .invalid

/-- A character's bytes, or an invalid byte. -/
structure TextUnit where
  bytes : List Byte
  valid : Bool
deriving DecidableEq, Repr

/-- Split a text into characters and invalid bytes; the second list holds the bytes pending at its end. -/
def utf8Units : Nat → List Byte → List TextUnit × List Byte
  | 0, bs => ([], bs)
  | _, [] => ([], [])
  | k + 1, b :: bs =>
    match utf8Head (b :: bs) with
    | .char n => let r := utf8Units k ((b :: bs).drop n); (⟨(b :: bs).take n, true⟩ :: r.1, r.2)
    | .invalid => let r := utf8Units k bs; (⟨[b], false⟩ :: r.1, r.2)
    | .pending => ([], b :: bs)

/-- The units of a whole stream: each byte pending at its end is an invalid byte. -/
def textUnits (bs : List Byte) : List TextUnit :=
  let r := utf8Units bs.length bs
  r.1 ++ r.2.map fun b => ⟨[b], false⟩

/-! ### Segments (R271) -/

/-- The scalar value of a well-formed character of two to four bytes: the payload bits of its lead byte, then six of each byte that follows. -/
def scalarOf : List Byte → Nat
  | [] => 0
  | b :: bs => bs.foldl (fun n c => n * 64 + c.toNat % 64) (b.toNat % 2 ^ (6 - bs.length))

/-- 0 letter, 1 digit, 2 space, 3 other. -/
def TextUnit.cls (u : TextUnit) : Nat :=
  if !u.valid then 3
  else match u.bytes with
    | [b] =>
      let n := b.toNat
      if (0x41 ≤ n ∧ n ≤ 0x5A) ∨ (0x61 ≤ n ∧ n ≤ 0x7A) then 0 else if 0x30 ≤ n ∧ n ≤ 0x39 then 1 else if (9 ≤ n ∧ n ≤ 13) ∨ n = 0x20 then 2 else 3
    | bs => charClass (scalarOf bs)

/-- A U+0020 that is followed by a character that is not a space. -/
def joinsNext (u : TextUnit) : List TextUnit → Bool
  | v :: _ => u.valid && u.bytes == [0x20] && v.cls != 2
  | [] => false

/-- Does a segment end between `u` and the units that follow? -/
def boundaryAfter (presplit : Bool) (u : TextUnit) : List TextUnit → Bool
  | [] => true
  | v :: vs => presplit && !joinsNext u (v :: vs) && (u.cls != v.cls || joinsNext v vs)

/-- Divide units into segments of at most 1,024; `acc` is the open segment, newest first. -/
def segments (presplit : Bool) : List TextUnit → List TextUnit → List (List TextUnit)
  | acc, [] => if acc.isEmpty then [] else [acc.reverse]
  | acc, u :: us =>
    if boundaryAfter presplit u us || 1024 ≤ acc.length + 1 then (u :: acc).reverse :: segments presplit [] us
    else segments presplit (u :: acc) us

/-! ### Tokens (R270, R272) -/

/-- The character map: the lowest token, neither CONTROL nor BYTE, whose string is the character. -/
def Vocab.charTok (v : Vocab) (c : List Byte) : Option Nat := v.toks.findIdx? fun t => !t.control && !t.byte && t.str == c

/-- Initial tokens of a unit; the flag says that it is UNMAPPED. -/
def Vocab.initial (v : Vocab) (u : TextUnit) : List Nat × Bool :=
  let bytes := match v.byteBase with
    | some k => some (u.bytes.map fun b => k + b.toNat)
    | none => none
  if u.valid then
    match v.charTok u.bytes with
    | some t => ([t], false)
    | none => match bytes with
      | some l => (l, false)
      | none => ([v.repl], true)
  else (bytes.getD [v.repl], false)

/-- Rank and result of a pair: its place in the merge list. -/
def Vocab.rank (v : Vocab) (a b : Nat) : Option Nat := v.merges.findIdx? fun m => m.1 = a && m.2.1 = b
def Vocab.leastRank (v : Vocab) : List Nat → Option Nat
  | a :: b :: l =>
    match v.rank a b, v.leastRank (b :: l) with
    | some r, some q => some (min r q)
    | some r, none => some r
    | none, q => q
  | _ => none
/-- One pass: every pair of rank `r`, from the left, becomes its result; the index steps past it. -/
def Vocab.mergePass (v : Vocab) (r : Nat) : List Nat → List Nat
  | a :: b :: l => if v.rank a b = some r then (match v.merges[r]? with | some m => m.2.2 | none => a) :: v.mergePass r l else a :: v.mergePass r (b :: l)
  | l => l
def Vocab.mergeAll (v : Vocab) : Nat → List Nat → List Nat
  | 0, l => l
  | k + 1, l => match v.leastRank l with
    | some r => v.mergeAll k (v.mergePass r l)
    | none => l

/-- What a tokenising job finds. -/
structure Tokens where
  toks     : List Nat
  units    : Nat
  merges   : Nat
  invalid  : Nat
  unmapped : Bool
deriving DecidableEq, Repr

/-- Tokenise a stream (R267–R272). -/
def Vocab.tokenise (v : Vocab) (text : List Byte) : Tokens :=
  let us := textUnits text
  let seqs := (segments v.presplit [] us).map fun seg => (seg.map v.initial)
  let firsts := seqs.map fun l => l.flatMap (·.1)
  let out := firsts.map fun l => v.mergeAll l.length l
  let count := fun (l : List (List Nat)) => (l.map List.length).sum
  { toks := out.flatten, units := us.length, merges := count firsts - count out, invalid := us.countP fun u => !u.valid,
    unmapped := seqs.any fun l => l.any (·.2) }

end Sys2Proof.Machine
end

