-- ==== Sys2Proof/Machine/CmdText.lean ====
section
/-! DEFINITION. The text commands when they start, and the work of the text engines: tokenising, the prompt packer, output tokens, masks (R262–R294). -/
namespace Sys2Proof.Machine

/-! ### Vocabularies (R264–R266) -/

/-- The tokens of a token table (Table 11.3); none where an entry breaks the table. -/
def State.tokTable (s : State) (f : Fn) (ta sa n : Nat) : Option (List Tok) :=
  (List.range n).mapM fun i =>
    let e := s.readNat f (ta + 8 * i) 8
    let len := e / 2 ^ 32 % 256
    let ctl := e.testBit 40
    if e / 2 ^ 43 ≠ 0 ∨ (len = 0 ∧ !ctl) ∨ (e.testBit 41 ∧ !ctl) ∨ !s.covered f (sa + e % 2 ^ 32) len then none
    else some ⟨s.readMem f (sa + e % 2 ^ 32) len, ctl, e.testBit 41, e.testBit 42⟩

/-- Does a string of the string area lie in a poisoned block? -/
def State.tokPoison (s : State) (f : Fn) (ta sa n : Nat) : Bool :=
  s.poisoned f ta (8 * n) || (List.range n).any fun i => let e := s.readNat f (ta + 8 * i) 8; s.poisoned f (sa + e % 2 ^ 32) (e / 2 ^ 32 % 256)

/-- The rules of R265 on what a header names; no CONTROL token stands among the byte-fallback tokens (R266). -/
def vocabOk (toks : List Tok) (merges : List (Nat × Nat × Nat)) (repl : Nat) (byteBase : Option Nat) : Bool :=
  let str := fun (i : Nat) => match toks[i]? with | some t => t.str | none => []
  let plain := fun (i : Nat) => match toks[i]? with | some t => !t.control | none => false
  (match toks[repl]? with | some t => t.str == replChar && !t.control && !t.byte | none => false) &&
  (match byteBase with
   | some k => (List.range 256).all fun b => match toks[k + b]? with | some t => t.byte && !t.control && t.str == [BitVec.ofNat 8 b] | none => false
   | none => true) &&
  ((List.range toks.length).all fun i =>
    match toks[i]? with
    | some t => !t.byte || (match byteBase with | some k => decide (k ≤ i) && decide (i < k + 256) | none => false)
    | none => true) &&
  (merges.all fun m => plain m.1 && plain m.2.1 && plain m.2.2 && str m.2.2 == str m.1 ++ str m.2.1) &&
  decide ((merges.map fun m => (m.1, m.2.1)).Nodup)

/-- The merge list. -/
def State.mergeTable (s : State) (f : Fn) (ma n : Nat) : List (Nat × Nat × Nat) :=
  (List.range n).map fun i => (s.readNat f (ma + 12 * i) 4, s.readNat f (ma + 12 * i + 4) 4, s.readNat f (ma + 12 * i + 8) 4)

/-- The checks of TXT_VOCAB_REG in their order (R264–R266): the vocabulary, whose structures have a size of the device's choice (log 3), or the status with which the command ends. -/
def State.vocabCheck (s : State) (n : StallId) (c : Cmd) : Except Code Vocab :=
  let v := s.serving[n]
  let f := vfOf n
  let a := c.u 0x10 8
  if !addrOk a || !s.covered f a 64 then .error .badDesc
  else if s.poisoned f a 64 then .error .poison
  else if 4 ≤ v.keep.vocabs.length then .error .quota
  else
    let b := s.readMem f a 64
    let u := bytesField b
    let nt := u 0 4
    let nm := u 4 4
    let ta := u 8 8
    let sa := u 0x10 8
    let ma := u 0x18 8
    let base := if u 0x24 4 = 0xFFFFFFFF then none else some (u 0x24 4)
    if nt = 0 ∨ 262144 < nt ∨ 262144 < nm ∨ ta % 64 ≠ 0 ∨ ma % 64 ≠ 0 ∨ 1 < u 0x28 1 ∨ !bytesZero b 0x29 23 ∨ !(addrOk ta && addrOk sa && addrOk ma) ∨
        !s.covered f ta (8 * nt) ∨ !s.covered f ma (12 * nm) then .error .badText
    else if s.tokPoison f ta sa nt || s.poisoned f ma (12 * nm) then .error .poison
    else
      let merges := s.mergeTable f ma nm
      match s.tokTable f ta sa nt, s.pick (freeNumbers 4 fun i => v.keep.vocabs.any fun x => x.handle = i) with
      | some toks, some h =>
        let size := s.useFree.free % 2 ^ 32
        if !vocabOk toks merges (u 0x20 4) base then .error .badText
        else if s.quotaHbm n * unitBytes < s.hbmUse n * unitBytes + size then .error .quota
        else .ok { handle := h, toks, merges, repl := u 0x20 4, byteBase := base, presplit := u 0x28 1 = 1, size, ready := false, tokAddr := ta, strAddr := sa, mrgAddr := ma }
      | _, _ => .error .badText
/-- The end of a registration that a check of the text unit refuses: poison is an event of TXT_STATUS (R293). -/
def State.refuseText (s : State) (c : Cmd) (st : Code) : State := (if st = .poison then s.raise .txt 0x1 else s).finish c st
/-- TXT_VOCAB_REG: the device builds the vocabulary's structures before it completes. -/
def State.startVocabReg (s : State) (n : StallId) (c : Cmd) : State :=
  match s.vocabCheck n c with
  | .error st => s.refuseText c st
  | .ok x => s.useFree.useFree.modSrv n fun v => { v with keep := { v.keep with vocabs := v.keep.vocabs ++ [x] }, vocabCmds := v.vocabCmds ++ [(c, x.handle)] }

/-! ### Grammars and templates (R275, R276, R285) -/

/-- The checks of TXT_GRAMMAR_REG in their order (R285). -/
def State.grammarCheck (s : State) (n : StallId) (c : Cmd) : Except Code Grammar :=
  let v := s.serving[n]
  let f := vfOf n
  let a := c.u 0x10 8
  if !addrOk a || !s.covered f a 64 then .error .badDesc
  else if s.poisoned f a 64 then .error .poison
  else if 64 ≤ v.keep.grammars.length then .error .quota
  else
    let b := s.readMem f a 64
    let u := bytesField b
    let ns := u 0 4
    let ta := u 8 8
    let aa := u 0x10 8
    let ca := u 0x20 8
    match v.vocab? (u 6 1), s.pick (freeNumbers 64 fun i => v.keep.grammars.any fun x => x.handle = i) with
    | some x, some h =>
      let slot := maskBytes x.toks.length
      if ns < 2 ∨ 65536 < ns ∨ u 4 2 = 0 ∨ ns ≤ u 4 2 ∨ !bytesZero b 7 1 ∨ 4096 < u 0x18 2 ∨ !bytesZero b 0x1A 6 ∨ !bytesZero b 0x28 24 ∨ ca % 4096 ≠ 0 ∨
          !(addrOk ta && addrOk aa && addrOk ca) ∨ !s.covered f ta (512 * ns) ∨ !s.covered f aa ((ns + 7) / 8) ∨ !s.writable f ca (u 0x18 2 * slot) ∨
          v.retiring 0x34 0 (u 6 1) then .error .badText
      else if s.poisoned f ta (512 * ns) || s.poisoned f aa ((ns + 7) / 8) then .error .poison
      else if (List.range (256 * ns)).any (fun i => let q := s.readNat f (ta + 2 * i) 2; decide (ns ≤ q) || (decide (i < 256) && decide (q ≠ 0))) ||
          (s.byteAt f aa).getLsbD 0 then .error .badText
      else
        .ok { handle := h, nstate := ns, start := u 4 2, vocab := u 6 1, trans := ta, accept := aa, slots := u 0x18 2, cache := ca }
    | _, _ => .error .badText
/-- TXT_GRAMMAR_REG. -/
def State.startGrammarReg (s : State) (n : StallId) (c : Cmd) : State :=
  match s.grammarCheck n c with
  | .error st => s.refuseText c st
  | .ok g => (s.useFree.modSrv n fun v => { v with keep := { v.keep with grammars := v.keep.grammars ++ [g] } }).finish c .ok g.handle

/-- The loop of a template: places of PBEGIN and PEND. -/
def placesOf (ops : List (Nat × Nat × Nat)) (k : Nat) : List Nat := (List.range ops.length).filter fun i => match ops[i]? with | some o => o.1 = k | none => false

/-- The rules of R276. -/
def templateOk (ops : List (Nat × Nat × Nat)) (nctrl nlit : Nat) : Bool :=
  let at_ := placesOf ops
  let before := fun (i : Nat) (l : List Nat) => l.all fun j => decide (i < j)
  (at_ 0 == [ops.length - 1]) && decide ((at_ 3).length ≤ 1) && decide ((at_ 7).length ≤ 1) && (ops.all fun o => decide (o.1 ≤ 7)) &&
  (match at_ 4, at_ 6, at_ 5 with
   | [], [], [] => true
   | [b], [e], [p] => decide (b < p) && decide (p < e)
   | _, _, _ => false) &&
  ((at_ 7).all fun i => before i (at_ 3) && before i (at_ 4)) &&
  (ops.all fun o => (o.1 ≠ 1 || decide (o.2.1 < nctrl)) && (o.1 ≠ 2 || decide (o.2.2 + o.2.1 ≤ nlit)))

/-- The checks of TXT_TEMPLATE_REG in their order (R275, R276). -/
def State.templateCheck (s : State) (n : StallId) (c : Cmd) : Except Code Template :=
  let v := s.serving[n]
  let f := vfOf n
  let a := c.u 0x10 8
  if !addrOk a || !s.covered f a 16 then .error .badDesc
  else if s.poisoned f a 16 then .error .poison
  else if 16 ≤ v.keep.templates.length then .error .quota
  else
    let u := fun o => s.readNat f (a + o) 4
    let nops := u 0
    let nc := u 4
    let nl := u 8
    match v.vocab? (c.u 0x18 4), s.pick (freeNumbers 16 fun i => v.keep.templates.any fun x => x.handle = i) with
    | some x, some h =>
      if nops = 0 ∨ 256 < nops ∨ 256 < nc ∨ 4096 < nl ∨ u 12 = 0 ∨ 65535 < u 12 ∨ v.retiring 0x34 0 (c.u 0x18 4) then .error .badText
      else if !s.covered f a (16 + 4 * nc + 8 * nops + 4 * nl) then .error .badDesc
      else if s.poisoned f a (16 + 4 * nc + 8 * nops + 4 * nl) then .error .poison
      else
        let ctrl := (List.range nc).map fun i => u (16 + 4 * i)
        let words := (List.range nops).map fun i => s.readNat f (a + 16 + 4 * nc + 8 * i) 8
        let ops := words.map fun w => (w % 256, w / 2 ^ 16 % 65536, w / 2 ^ 32)
        let lits := (List.range nl).map fun i => u (16 + 4 * nc + 8 * nops + 4 * i)
        let isCtl := fun (t : Nat) => match x.toks[t]? with | some k => k.control | none => false
        let isPlain := fun (t : Nat) => match x.toks[t]? with | some k => !k.control | none => false
        if words.any (fun w => decide (w / 256 % 256 ≠ 0)) || !ctrl.all isCtl || !lits.all isPlain || !templateOk ops nc nl then .error .badText
        else .ok { handle := h, vocab := c.u 0x18 4, minpass := u 12, ctrl, ops, lits }
    | _, _ => .error .badText
/-- TXT_TEMPLATE_REG. -/
def State.startTemplateReg (s : State) (n : StallId) (c : Cmd) : State :=
  match s.templateCheck n c with
  | .error st => s.refuseText c st
  | .ok t => (s.useFree.modSrv n fun v => { v with keep := { v.keep with templates := v.keep.templates ++ [t] } }).finish c .ok t.handle

/-- TXT_RETIRE (R291). -/
def State.startTxtRetire (s : State) (n : StallId) (c : Cmd) : State :=
  let v := s.serving[n]
  let h := c.u 0x14 4
  let known := match c.u 0x10 4 with
    | 0 => (v.vocab? h).isSome && !v.keep.grammars.any (fun g => g.vocab = h) && !v.keep.templates.any (fun t => t.vocab = h)
    | 1 => (v.grammar? h).isSome
    | 2 => (v.template? h).isSome
    | _ => false
  if !known || v.retiring 0x34 (c.u 0x10 4) h then s.finish c .badText else s.startRetire n c

/-- TXT_TOKENISE: the job waits for the engine of its die (R274). -/
def State.startTokenise (s : State) (n : StallId) (c : Cmd) : State :=
  let v := s.serving[n]
  let f := vfOf n
  let k := c.u 0x12 2
  let a := c.u 0x18 8
  if (v.vocab? (c.u 0x10 1)).isNone || v.retiring 0x34 0 (c.u 0x10 1) then s.finish c .badText
  else if 3 < c.u 0x11 1 ∨ k = 0 ∨ 16 < k ∨ !addrOk a ∨ !addrOk (c.u 0x20 8) ∨ !s.covered f a (16 * k) ∨ !s.writable f (c.u 0x20 8) (4 * c.u 0x28 4) then s.finish c .badDesc
  else if s.poisoned f a (16 * k) then (s.raise .txt 0x1).finish c .poison
  else match s.bufList f a k with
    | some l =>
      if l.all fun x => s.covered f x.1 x.2 then
        s.modSrv n fun v => { v with nextText := v.nextText + 1,
                                     text := v.text ++ [.new v.nextText (Fin.ofNat 4 (c.u 0x11 1)) (.tokenise c)] }
      else s.finish c .badDesc
    | none => s.finish c .badDesc

/-! ### Grammar and masks (R286–R290) -/

/-- An automaton state, and whether a poisoned line was read on the way. -/
structure GState where
  q   : Nat
  bad : Bool
deriving DecidableEq, Repr

/-- Read one byte from a state; the dead state stays dead. -/
def State.gByte (s : State) (f : Fn) (g : Grammar) (x : GState) (b : Byte) : GState :=
  if x.q = 0 then x
  else
    let a := g.trans + 512 * x.q + 2 * b.toNat
    ⟨s.readNat f a 2, x.bad || s.poisoned f a 2⟩
def State.gRead (s : State) (f : Fn) (g : Grammar) (q : Nat) (str : List Byte) : GState := str.foldl (s.gByte f g) ⟨q, false⟩
def State.gAccepts (s : State) (f : Fn) (g : Grammar) (q : Nat) : Bool := (s.byteAt f (g.accept + q / 8)).getLsbD (q % 8)

/-- Is a token allowed in a state (R286)? -/
def State.allows (s : State) (f : Fn) (g : Grammar) (q : Nat) (t : Tok) : Bool :=
  (!t.control && decide ((s.gRead f g q t.str).q ≠ 0)) || (t.stop && s.gAccepts f g q)

/-- What the engine reads of a grammar on the way of some bytes from a state, and whether the state accepts. -/
def State.gPath (s : State) (f : Fn) (g : Grammar) (q : Nat) (str : List Byte) : List (Nat × Nat) :=
  (g.accept + q / 8, 1) :: ((List.range str.length).map fun i => (g.trans + 512 * (s.gRead f g q (str.take i)).q + 2 * (str.getD i 0).toNat, 2))
/-- What it reads to compute the mask of a state. -/
def State.maskReads (s : State) (f : Fn) (g : Grammar) (v : Vocab) (q : Nat) : List (Nat × Nat) :=
  ((v.toks.filter fun t => !t.control).flatMap fun t => s.gPath f g q t.str).eraseDups

/-- The mask of a state: one flag per token. -/
def State.maskOf (s : State) (f : Fn) (g : Grammar) (v : Vocab) (q : Nat) : List Bool := v.toks.map (s.allows f g q)
/-- Does the walk of the trie, or the accepting bit, read a poisoned line? -/
def State.maskBad (s : State) (f : Fn) (g : Grammar) (v : Vocab) (q : Nat) : Bool :=
  s.poisoned f (g.accept + q / 8) 1 || v.toks.any fun t => !t.control && (s.gRead f g q t.str).bad
/-- Trie nodes visited: the distinct beginnings of strings that the automaton reads without falling into the dead state. -/
def State.maskNodes (s : State) (f : Fn) (g : Grammar) (v : Vocab) (q : Nat) : Nat :=
  ((v.toks.filter fun t => !t.control).flatMap fun t => (List.range t.str.length).filterMap fun i =>
    let p := t.str.take (i + 1)
    if (s.gRead f g q p).q ≠ 0 then some p else none).eraseDups.length

/-- The bytes of a mask, one slot. -/
def maskSlotBytes (m : List Bool) : List Byte :=
  (List.range (maskBytes m.length)).map fun i => BitVec.ofNat 8 (((List.range 8).map fun b => if m.getD (8 * i + b) false then 2 ^ b else 0).sum)

def slotAddr (g : Grammar) (v : Vocab) (i : Nat) : Nat := g.cache + i * maskBytes v.toks.length

/-- Where the mask of a state is found: a held slot that is not poisoned; else a slot to compute it into; else none (the private area). -/
inductive MaskPlace where
  | hit (slot : Nat)
  | into (slot : Nat)
  | own
deriving DecidableEq, Repr

def State.maskPlace (s : State) (n : StallId) (g : Grammar) (v : Vocab) (q : Nat) : MaskPlace :=
  let l := (s.serving[n]).masks.filter fun m => m.grammar = g.handle
  match l.find? fun m => m.state = q with
  | some m => if s.poisoned (vfOf n) (slotAddr g v m.slot) (maskBytes v.toks.length) then .into m.slot else .hit m.slot
  | none =>
    match (List.range g.slots).find? fun i => !l.any fun m => m.slot = i with
    | some i => .into i
    | none => match l.find? fun m => m.pins.isEmpty with
      | some m => .into m.slot
      | none => .own

/-- Steps of the mask of a state (Table 11.1). -/
def State.maskSteps (s : State) (n : StallId) (g : Grammar) (v : Vocab) (q : Nat) : Nat :=
  match s.maskPlace n g v q with
  | .hit _ => 1
  | _ => s.maskNodes (vfOf n) g v q + maskBytes v.toks.length / 64

/-- A mask queue entry (Table 11.10). -/
def maskEntry (q : Request) (step state addr : Nat) (m : List Bool) (accepting own poison : Bool) : Entry :=
  let k := m.countP (· = true)
  let flags := (if accepting then 1 else 0) + (if k = 1 then 2 else 0) + (if own then 4 else 0) + (if poison then 8 else 0)
  entryOfBytes (toBytesLE 4 q.tag.toNat ++ toBytesLE 2 q.seq ++ toBytesLE 2 flags ++ toBytesLE 4 step ++ toBytesLE 4 k ++ toBytesLE 6 addr ++ toBytesLE 2 state ++
    toBytesLE 4 (if k = 1 then (m.findIdx? (· = true)).getD 0 else 0xFFFFFFFF) ++ List.replicate 36 0)

/-- Use a mask cache slot: it becomes the most recently used, holds the state, and is pinned for the sequence. -/
def Serving.useSlot (v : Serving) (g : Grammar) (slot state : Nat) (tag : Word) : Serving :=
  let pins := match v.masks.find? fun m => m.grammar = g.handle && m.slot = slot && m.state = state with
    | some m => m.pins
    | none => []
  { v with masks := (v.masks.filter fun m => !(m.grammar = g.handle && m.slot = slot)) ++ [⟨g.handle, slot, state, pins ++ [tag]⟩] }
/-- The sequence's token for the step is accepted: its slots are no longer pinned by it (R289). -/
def Serving.unpin (v : Serving) (tag : Word) : Serving := { v with masks := v.masks.map fun m => { m with pins := m.pins.filter (· ≠ tag) } }

/-- Outcome of computing a mask. -/
inductive MaskOut where
  | poison
  | stuck
  | push (s : State) (e : Entry)

/-- Compute the mask of a request's state for a step (R286–R290). -/
def State.nextMask (s : State) (n : StallId) (q : Request) (g : Grammar) (v : Vocab) (step : Nat) (die : Die) : MaskOut :=
  let f := vfOf n
  let st := q.gstate
  let place := s.maskPlace n g v st
  let m := s.maskOf f g v st
  if (match place with | .hit _ => false | _ => s.maskBad f g v st) then .poison
  else if !m.any id then .stuck
  else
    let acc := s.gAccepts f g st
    match place with
    | .hit i => .push ((s.modSrv n fun x => x.useSlot g i st q.tag).count (some n) 0x061 1) (maskEntry q step st (slotAddr g v i) m acc false false)
    | .into i =>
      .push (((s.writeMem f (slotAddr g v i) (maskSlotBytes m) die).modSrv n fun x => x.useSlot g i st q.tag).count (some n) 0x062 1) (maskEntry q step st (slotAddr g v i) m acc false false)
    | .own => .push (s.writeMem f q.maskAddr (maskSlotBytes m) die) (maskEntry q step st q.maskAddr m acc true false)

/-! ### The prompt packer (R275–R280) -/

/-- What the packer makes. -/
structure Packed where
  toks   : List Nat
  flags  : Nat
  passes : Nat
  prefix_ : Nat
  scrub  : Nat
  ops    : Nat
deriving DecidableEq, Repr

/-- Tokens of a CTRL or LIT operation. -/
def Template.fixedToks (t : Template) (o : Nat × Nat × Nat) : List Nat :=
  if o.1 = 1 then [t.ctrl.getD o.2.1 0] else if o.1 = 2 then (t.lits.drop o.2.2).take o.2.1 else []
/-- A token from the query or a passage: a CONTROL token or one at NTOK or above becomes REPL (R278). -/
def Vocab.scrubs (v : Vocab) (t : Nat) : Bool := match v.toks[t]? with | some k => k.control | none => true
def Vocab.scrub (v : Vocab) (t : Nat) : Nat := if v.scrubs t then v.repl else t

/-- The passages that fit: tokens taken of each, TRUNC, DROPPED (R279). -/
def fitPasses (body minpass : Nat) : Nat → List (List Nat) → List (List Nat) × Bool × Bool
  | _, [] => ([], false, false)
  | room, p :: ps =>
    if room < body + minpass then ([], false, true)
    else
      let take := min p.length (room - body)
      let r := fitPasses body minpass (room - body - take) ps
      (p.take take :: r.1, r.2.1 || decide (take < p.length), r.2.2)

/-- Run a template; none for NO_ROOM. -/
def Template.run (t : Template) (v : Vocab) (query : List Nat) (passes : List (List Nat)) (max : Nat) : Option Packed :=
  let loop := match placesOf t.ops 4, placesOf t.ops 6 with
    | [b], [e] => some (b, e)
    | _, _ => none
  let inLoop := fun (i : Nat) => match loop with | some (b, e) => decide (b < i) && decide (i < e) | none => false
  let ops := List.zip (List.range t.ops.length) t.ops
  let outer := ops.filter fun x => !inLoop x.1
  let inner := (ops.filter fun x => inLoop x.1).map (·.2)
  let hasQ := outer.any fun x => x.2.1 = 3
  let outLen := (outer.map fun x => (t.fixedToks x.2).length).sum
  let qlen := if hasQ then query.length else 0
  let q' := if max < outLen + qlen then max - outLen else qlen
  if max < outLen then none
  else
    let body := (inner.map fun o => if o.1 = 3 then query.length else (t.fixedToks o).length).sum
    let fit := match loop with
      | some _ => fitPasses body t.minpass (max - outLen - q') passes
      | none => ([], false, false)
    let qt := (query.take q').map fun k => (v.scrub k, v.scrubs k)
    let own := fun (l : List Nat) => l.map fun k => (k, false)
    let runLoop := fit.1.flatMap fun p => inner.flatMap fun o => if o.1 = 3 ∨ o.1 = 5 then (if o.1 = 3 then query else p).map fun k => (v.scrub k, v.scrubs k) else own (t.fixedToks o)
    let emit := fun (x : Nat × Nat × Nat × Nat) => if x.2.1 = 3 then qt else if x.2.1 = 4 then runLoop else own (t.fixedToks x.2)
    let all := outer.flatMap emit
    let pfx := match placesOf t.ops 7 with
      | [p] => ((outer.filter fun x => decide (x.1 < p)).flatMap emit).length
      | _ => 0
    let scrub := all.countP (·.2)
    some { toks := all.map (·.1), passes := fit.1.length, prefix_ := pfx, scrub, ops := outer.length + fit.1.length * inner.length,
           flags := (if fit.2.1 then 1 else 0) + (if fit.2.2 then 2 else 0) + (if q' < qlen then 4 else 0) + (if scrub = 0 then 0 else 8) }

/-- What a pack entry asks for, read from memory: the packer's input, or why it fails. -/
inductive PackIn where
  | bad
  | poison
  | noRoom
  | ok (v : Vocab) (p : Packed)

def State.packIn (s : State) (n : StallId) (e : Entry) : PackIn :=
  let f := vfOf n
  let sv := s.serving[n]
  let u := Entry.field e
  let qa := u 8 6
  let qn := u 0x10 4
  let np := u 0x14 2
  let pa := u 0x18 6
  let ps := u 0x20 4
  match sv.template? (u 4 1) with
  | none => .bad
  | some t =>
    match sv.vocab? t.vocab with
    | none => .bad
    | some v =>
      let passAt := fun (i : Nat) => pa + i * ps
      let lens := (List.range np).map fun i => s.readNat f (passAt i) 4
      if u 5 3 ≠ 0 ∨ u 0x0E 2 ≠ 0 ∨ u 0x16 2 ≠ 0 ∨ u 0x1E 2 ≠ 0 ∨ u 0x2E 18 ≠ 0 ∨ qa % 64 ≠ 0 ∨ pa % 64 ≠ 0 ∨ ps % 64 ≠ 0 ∨ u 0x28 6 % 64 ≠ 0 ∨ 131072 < qn ∨ 64 < np ∨
          u 0x24 4 = 0 ∨ 131072 < u 0x24 4 ∨ !s.covered f qa (4 * qn) ∨ (List.range np).any (fun i => !s.covered f (passAt i) 8) then .bad
      else if s.poisoned f qa (4 * qn) || (List.range np).any (fun i => s.poisoned f (passAt i) 8) then .poison
      else if (List.zip (List.range np) lens).any (fun x => !s.covered f (passAt x.1) (8 + 4 * x.2)) then .bad
      else if (List.zip (List.range np) lens).any (fun x => s.poisoned f (passAt x.1) (8 + 4 * x.2)) then .poison
      else
        let words := fun (a k : Nat) => (List.range k).map fun i => s.readNat f (a + 4 * i) 4
        match t.run v (words qa qn) ((List.zip (List.range np) lens).map fun x => words (passAt x.1 + 8) x.2) (u 0x24 4) with
        | none => .noRoom
        | some p => if s.writable f (u 0x28 6) (4 * p.toks.length) then .ok v p else .bad

/-- What the packer reads for an entry. -/
def packReads (s : State) (n : StallId) (e : Entry) : List (Nat × Nat) :=
  let u := Entry.field e
  (u 8 6, 4 * u 0x10 4) :: (List.range (u 0x14 2)).map fun i => (u 0x18 6 + i * u 0x20 4, 8 + 4 * min 131072 (s.readNat (vfOf n) (u 0x18 6 + i * u 0x20 4) 4))

/-- A prompt queue entry (Table 11.7). -/
def promptEntry (e : Entry) (p : Packed) : Entry :=
  entryOfBytes (toBytesLE 4 (Entry.field e 0 4) ++ toBytesLE 2 p.flags ++ toBytesLE 2 p.passes ++ toBytesLE 6 (Entry.field e 0x28 6) ++ toBytesLE 2 0 ++
    toBytesLE 4 p.toks.length ++ toBytesLE 4 p.prefix_ ++ toBytesLE 4 p.scrub ++ List.replicate 36 0)
/-- The prompt entry of a job that poison stops: POISON, and no prompt (R293). -/
def Packed.poison : Packed := { toks := [], flags := 0x20, passes := 0, prefix_ := 0, scrub := 0, ops := 0 }

/-! ### Steps and jobs (R262, R263, Table 11.1) -/

/-- The text of a stream: its buffers in order (R267). -/
def State.streamText (s : State) (f : Fn) (l : List (Nat × Nat)) : List Byte := l.flatMap fun x => s.readMem f x.1 x.2
def State.streamBad (s : State) (f : Fn) (l : List (Nat × Nat)) : Bool := l.any fun x => s.poisoned f x.1 x.2
def State.reqBufs (s : State) (n : StallId) (q : Request) : List (Nat × Nat) := (s.bufList (vfOf n) (q.cmd.u 0x18 8) (q.cmd.u 0x16 2)).getD []
def Serving.reqVocab (v : Serving) (q : Request) : Option Vocab := v.vocab? (v.progField q 0 1)
/-- The grammar that a request's program binds, with its vocabulary. -/
def Serving.reqGram (v : Serving) (q : Request) : Option (Grammar × Vocab) :=
  match v.reqGrammar q with
  | some h => (match v.grammar? h with
    | some g => (v.vocab? g.vocab).map fun x => (g, x)
    | none => none)
  | none => none

/-- Do the tables that a vocabulary was registered from still stand as they were? -/
def State.vocabKept (s : State) (f : Fn) (x : Vocab) : Bool :=
  decide (s.tokTable f x.tokAddr x.strAddr x.toks.length = some x.toks) && decide (s.mergeTable f x.mrgAddr x.merges.length = x.merges)
/-- The tokens of a stream (R267–R272). Once software has written the tables they are tokens of the vocabulary in an unspecified sequence (R266, log 86). -/
def State.tokens (s : State) (f : Fn) (x : Vocab) (text : List Byte) : Tokens :=
  let t := x.tokenise text
  if s.vocabKept f x then t else { t with toks := (Config.changedTokens s.fresh text).map (· % x.toks.length) }
/-- Does a tokenisation meet poison: in its text, or in a table line that it reads of the vocabulary? Which lines it reads is open (log 86). -/
def State.textBad (s : State) (f : Fn) (x : Vocab) (bufs : List (Nat × Nat)) : Bool :=
  s.streamBad f bufs || (decide (s.free % 2 = 1) && (s.tokPoison f x.tokAddr x.strAddr x.toks.length || s.poisoned f x.mrgAddr (12 * x.merges.length)))

/-- Steps of the mask that a request needs next, with the push of its entry. -/
def State.maskJob (s : State) (n : StallId) (tag : Word) : Nat :=
  match (s.serving[n]).req? tag with
  | some q => (match (s.serving[n]).reqGram q with
    | some (g, x) => s.maskSteps n g x q.gstate + (if (s.maskOf (vfOf n) g x q.gstate).any id then 1 else 0)
    | none => 1)
  | none => 1

/-- Steps of a job's part in hand, as Table 11.1 counts them: its first work, or the mask that follows it. -/
def State.jobSteps (s : State) (n : StallId) (j : TextJob) : Nat :=
  let v := s.serving[n]
  let f := vfOf n
  let tokSteps := fun (x : Vocab) (l : List (Nat × Nat)) => let t := x.tokenise (s.streamText f l); t.units + t.merges
  match j.work with
  | .token tag => (match v.req? tag with
    | some q => (match v.reqVocab q with | some x => tokSteps x (s.reqBufs n q) + 1 | none => 1)
    | none => 1)
  | .tokenise c => (match v.vocab? (c.u 0x10 1) with | some x => tokSteps x ((s.bufList f (c.u 0x18 8) (c.u 0x12 2)).getD []) | none => 1)
  | .pack e =>
    if j.mask = .now then s.maskJob n e.tag
    else match s.packIn n e.e with
      | .ok _ p => p.ops + (p.toks.length + 15) / 16 + 1
      | _ => 1
  | .out e =>
    if j.mask = .now then s.maskJob n e.tag
    else match v.req? e.tag with
      | some q => (match v.reqGram q with
        | some (g, x) => (match x.toks[Entry.field e.e 0x0C 4]? with
          | some t => if t.stop || !s.allows f g q.gstate t then 1 else 1 + t.str.length
          | none => 1)
        | none => 1)
      | none => 1

/-- What the end of a job's part in hand reads and writes. -/
def State.jobRanges (s : State) (n : StallId) (j : TextJob) : List (Nat × Nat) × List (Nat × Nat) :=
  let v := s.serving[n]
  let f := vfOf n
  let mask := fun (tag : Word) => match v.req? tag with
    | some q => (match v.reqGram q with
      | some (g, x) => (match s.maskPlace n g x q.gstate with
        | .hit _ => ([], [])
        | .into i => (s.maskReads f g x q.gstate, [(slotAddr g x i, maskBytes x.toks.length)])
        | .own => (s.maskReads f g x q.gstate, [(q.maskAddr, maskBytes x.toks.length)]))
      | none => ([], []))
    | none => ([], [])
  match j.work with
  | .token tag => (match v.req? tag with
    | some q => (match v.reqVocab q with
      | some x => let b := s.reqBufs n q; (b, [(q.work + 0x40, 4 * min q.qtokCap (s.tokens f x (s.streamText f b)).toks.length)])
      | none => ([], []))
    | none => ([], []))
  | .tokenise c => (match v.vocab? (c.u 0x10 1) with
    | some x => let b := (s.bufList f (c.u 0x18 8) (c.u 0x12 2)).getD []; (b, [(c.u 0x20 8, 4 * min (c.u 0x28 4) (s.tokens f x (s.streamText f b)).toks.length)])
    | none => ([], []))
  | .pack e =>
    if j.mask = .now then mask e.tag
    else match s.packIn n e.e with
      | .ok _ p => (packReads s n e.e, [(Entry.field e.e 0x28 6, 4 * p.toks.length)])
      | _ => (packReads s n e.e, [])
  | .out e =>
    if j.mask = .now then mask e.tag
    else match v.req? e.tag with
      | none => ([], [])
      | some q =>
        let str := match (v.reqVocab q).bind fun x => x.toks[Entry.field e.e 0x0C 4]? with | some t => t.str | none => []
        ((match v.reqGram q with | some (g, _) => s.gPath f g q.gstate str | none => []),
         (if q.tokOut = 0 then [] else [(q.tokOut + 4 * (Entry.field e.e 8 4 - 1), 4)]) ++
           [(q.outAddr + q.outDone, min (q.outBytes - q.outDone) (3 * (q.heldText.length + str.length + 1)))])

def Serving.modText (v : Serving) (i : Nat) (g : TextJob → Option TextJob) : Serving := { v with text := v.text.filterMap fun j => if j.id = i then g j else some j }
def State.modText (s : State) (n : StallId) (i : Nat) (g : TextJob → Option TextJob) : State := s.modSrv n fun v => v.modText i g

/-- A program without a generator: the device takes the prompt entry and the request completes at stage 7 (Table 12.7). -/
def State.takesPrompt (s : State) (n : StallId) (tag : Word) : Bool :=
  match (s.serving[n]).req? tag with
  | some q => ((s.serving[n]).reqModel q).isNone
  | none => false

/-- What a job does once its entry is pushed: it goes on to the mask that follows, or it ends. -/
def TextJob.goOn (j : TextJob) : Option TextJob := if j.mask = .after then some { j with held := [], mask := .now, taken := 0 } else none
/-- Push the entries of a job in order; the context keeps those that a full share holds back (R19, R262). `first`: the holding of the first begins. -/
def State.pushHeld (s : State) (n : StallId) (i : Nat) (d : Die) (first : Bool) : List (Nat × QEntry) → State
  | [] => s.modText n i TextJob.goOn
  | (q, e) :: rest =>
    if q = 6 && s.takesPrompt n e.tag then (s.modText n i fun _ => none).endRequest n e.tag
    else if s.queueFull n d q then
      let s := s.modText n i fun j => some { j with held := (q, e) :: rest }
      if first then (s.raise .txt 0x2).count (some n) (0x030 + q) 1 else s
    else ((s.enqueue n d q { e with since := s.now }).modReq n e.tag fun r => { r with stage := queueStage q, phase := if q = 6 then .prompt else r.phase }).pushHeld n i d true rest

def reqFail (st : Code) (stage : BitVec 8) : Failure := { status := st, stage }

/-- A job of a request meets an uncorrectable error (R293): it stops, the request completes with POISON, and the entry that was due is pushed with its POISON flag and
nothing else but what names the request (log 86). -/
def State.poisonJob (s : State) (n : StallId) (j : TextJob) (tag : Word) (stage : BitVec 8) (q : Nat) (due : Entry) : State :=
  let s := (s.raise .txt 0x1).failReq n tag (reqFail .poison stage)
  (s.modSrv n fun v => { v with text := v.text ++ [{ j with held := [], mask := .none }] }).pushHeld n j.id j.die true [(q, s.mkEntry due)]

/-- A token queue entry (Table 11.4). -/
def tokenEntry (tag : Word) (flags vocab addr count bytes invalid : Nat) : Entry :=
  entryOfBytes (toBytesLE 4 tag.toNat ++ toBytesLE 2 flags ++ toBytesLE 1 vocab ++ toBytesLE 1 0 ++ toBytesLE 6 addr ++ toBytesLE 2 0 ++
    toBytesLE 4 count ++ toBytesLE 4 bytes ++ toBytesLE 4 invalid ++ List.replicate 36 0)

/-- The last step of a tokenising job (R270, R273). -/
def State.finishToken (s : State) (n : StallId) (j : TextJob) (tag : Word) : State :=
  let v := s.serving[n]
  let f := vfOf n
  match v.req? tag with
  | none => s.modText n j.id fun _ => none
  | some q =>
    match v.reqVocab q with
    | none => s.failReq n tag (reqFail .badDesc 1)
    | some x =>
      let bufs := s.reqBufs n q
      let a := q.work + 0x40
      let s := s.noteReads f bufs j.die
      if s.textBad f x bufs then s.useFree.poisonJob n j tag 1 0 (tokenEntry tag 8 x.handle a 0 0 0)
      else
        let t := s.tokens f x (s.streamText f bufs)
        let out := t.toks.take q.qtokCap
        let trunc := decide (q.qtokCap < t.toks.length)
        let s := s.useFree.writeMem f a (out.flatMap (toBytesLE 4)) j.die
        let s := if t.invalid = 0 then s else s.noteInvalid n tag
        let s := s.modReq n tag fun q => (q.note (if t.unmapped then 0x10 else 0)).note (if trunc then 0x40 else 0)
        let flags := (if t.invalid = 0 then 0 else 1) + (if t.unmapped then 2 else 0) + (if trunc then 4 else 0)
        s.pushHeld n j.id j.die true [(0, s.mkEntry (tokenEntry tag flags x.handle a out.length ((bufs.map (·.2)).sum) t.invalid))]

/-- The last step of a TXT_TOKENISE command (R274): TRUNC is the note SHORT, the one that Table 12.6 gives the command. -/
def State.finishTokenise (s : State) (n : StallId) (j : TextJob) (c : Cmd) : State :=
  let f := vfOf n
  let s0 := s.modText n j.id fun _ => none
  let bufs := (s.bufList f (c.u 0x18 8) (c.u 0x12 2)).getD []
  let done := match (s.serving[n]).vocab? (c.u 0x10 1) with
    | none => s0.finish c .badText
    | some x =>
      let s0 := s0.noteReads f bufs j.die
      if s0.textBad f x bufs then (s0.useFree.raise .txt 0x1).finish c .poison
      else
        let t := s0.tokens f x (s.streamText f bufs)
        let out := t.toks.take (c.u 0x28 4)
        let s1 := s0.useFree.writeMem f (c.u 0x20 8) (out.flatMap (toBytesLE 4)) j.die
        let s1 := if t.invalid = 0 then s1 else (s1.raise .txt 0x4).count (some n) 0x063 1
        let notes : Word := (if c.u 0x28 4 < t.toks.length then 1 else 0) ||| (if t.invalid = 0 then 0 else 8) ||| (if t.unmapped then 0x10 else 0)
        s1.complete c { status := .ok, result0 := BitVec.ofNat 32 out.length, notes }
  done.pumpRetires n

/-- The last step of a job's mask (R280, R282, R286–R290). -/
def State.finishMask (s : State) (n : StallId) (j : TextJob) (tag : Word) : State :=
  let v := s.serving[n]
  match v.req? tag with
  | none => s.modText n j.id fun _ => none
  | some q =>
    match v.reqGram q with
    | none => s.modText n j.id fun _ => none
    | some (g, x) =>
      let s := s.noteReads (vfOf n) (s.jobRanges n j).1 j.die
      match s.nextMask n q g x (q.step + 1) j.die with
      | .poison => s.poisonJob n j tag 10 7 (maskEntry q (q.step + 1) q.gstate 0 [] false false true)
      | .stuck => (s.raise .txt 0x8).failLate n tag (reqFail .grammarStuck 10)
      | .push s m => (s.modText n j.id fun j => some { j with mask := .none }).pushHeld n j.id j.die true [(7, s.mkEntry m)]

/-- The last packing step of a pack job (R277–R280): the prompt entry is pushed; under a grammar of a generator the mask of the first token follows. -/
def State.finishPack (s : State) (n : StallId) (j : TextJob) (e : QEntry) : State :=
  let v := s.serving[n]
  match v.req? e.tag with
  | none => s.modText n j.id fun _ => none
  | some q =>
    if e.poison then (s.raise .txt 0x1).failReq n e.tag (reqFail .poison 7)
    else
    let s := s.noteReads (vfOf n) (packReads s n e.e) j.die
    match s.packIn n e.e with
    | .bad => s.failReq n e.tag (reqFail .badDesc 7)
    | .poison => s.poisonJob n j e.tag 7 6 (promptEntry e.e .poison)
    | .noRoom => s.failReq n e.tag (reqFail .promptTooLong 7)
    | .ok _ p =>
      let s := s.writeMem (vfOf n) (Entry.field e.e 0x28 6) (p.toks.flatMap (toBytesLE 4)) j.die
      let notes : Word := (if p.flags.testBit 2 then 0x40 else 0) ||| (if p.flags.testBit 0 then 0x80 else 0) ||| (if p.flags.testBit 1 then 0x100 else 0) |||
        (if p.flags.testBit 3 then 0x200 else 0)
      let s := s.modReq n e.tag fun q => { (q.note notes) with promptLen := p.toks.length, prefixLen := p.prefix_, promptAt := Entry.field e.e 0x28 6 }
      let s := s.modText n j.id fun j => some { j with mask := if (v.reqGram q).isSome then .after else .none }
      s.pushHeld n j.id j.die true [(6, s.mkEntry (promptEntry e.e p))]

/-- Write the whole characters of rendered bytes, and hold a sequence that is well-formed so far (R283). -/
def State.render (s : State) (n : StallId) (tag : Word) (bs : List Byte) : State :=
  match (s.serving[n]).req? tag with
  | none => s
  | some q =>
    let all := q.heldText ++ bs
    let r := utf8Units all.length all
    let s := r.1.foldl (fun s u => if u.valid then s.putChar n tag u.bytes else (s.noteInvalid n tag).putChar n tag replChar) s
    s.modReq n tag fun q => { q with heldText := r.2 }

/-- An accepted token is counted and written at TOK_OUT (R281, Table 12.3). -/
def State.acceptToken (s : State) (n : StallId) (q : Request) (step tok : Nat) (die : Die) : State :=
  let s := if q.tokOut = 0 then s else s.writeMem (vfOf n) (q.tokOut + 4 * (step - 1)) (toBytesLE 4 tok) die
  (s.modSrv n fun v => { v with nTokens := v.nTokens + 1 }).modReq n q.tag fun q =>
    { q with step, last := BitVec.ofNat 32 tok, ready := true, stage := 9, firstUs := if step = 1 then (s.now - q.admitAt) / usBclk else q.firstUs }

/-- The last step that handles an output token (R281–R290): the grammar check, the end of the sequence, the text; under a grammar the mask of the next step follows. -/
def State.finishOut (s : State) (n : StallId) (j : TextJob) (e : QEntry) : State :=
  let v := s.serving[n]
  let f := vfOf n
  let free := fun (s : State) => s.modText n j.id fun _ => none
  let step := Entry.field e.e 8 4
  let tok := Entry.field e.e 0x0C 4
  match v.req? e.tag with
  | none => (free s).count (some n) 0x03B 1
  | some q =>
    if e.poison then (s.raise .txt 0x1).failReq n e.tag (reqFail .poison 10)
    else if step ≠ q.step + 1 then (free s).count (some n) 0x03B 1
    else
      let s := s.noteReads f (s.jobRanges n j).1 j.die
      let s := s.modSrv n fun v => v.unpin e.tag
      let endOk := fun (s : State) => (free s).endRequest n e.tag
      let isStop := fun (x : Vocab) => match x.toks[tok]? with | some t => t.stop | none => false
      let last := decide (q.maxOut ≤ step)
      let text := fun (x : Vocab) (s : State) =>
        match x.toks[tok]? with
        | some t => if t.control then s else s.render n e.tag t.str
        | none => (s.noteInvalid n e.tag).render n e.tag replChar
      match v.reqGram q with
      | some (g, x) =>
        let ok := match x.toks[tok]? with | some t => s.allows f g q.gstate t | none => false
        let next := match x.toks[tok]? with | some t => s.gRead f g q.gstate t.str | none => ⟨0, false⟩
        if next.bad || s.poisoned f (g.accept + q.gstate / 8) 1 then s.poisonJob n j e.tag 10 7 (maskEntry q (step + 1) q.gstate 0 [] false false true)
        else if !ok then (s.raise .txt 0x8).failLate n e.tag (reqFail .grammarViolation 10)
        else
          let s := s.acceptToken n q step tok j.die
          if isStop x then endOk s
          else
            let s := text x (s.modReq n e.tag fun q => { q with gstate := next.q })
            if last then endOk (s.modReq n e.tag fun q => q.note 0x2000) else s.modText n j.id fun j => some { j with mask := .now, taken := 0 }
      | none =>
        match v.reqVocab q with
        | none => free s
        | some x =>
          let s := s.acceptToken n q step tok j.die
          if isStop x then endOk s
          else
            let s := text x s
            if last then endOk (s.modReq n e.tag fun q => q.note 0x2000) else free s

def State.finishText (s : State) (n : StallId) (j : TextJob) : State :=
  match j.work with
  | .token tag => s.finishToken n j tag
  | .pack e => if j.mask = .now then s.finishMask n j e.tag else s.finishPack n j e
  | .out e => if j.mask = .now then s.finishMask n j e.tag else s.finishOut n j e
  | .tokenise c => s.finishTokenise n j c

/-! ### Choosing a job (R262, R263) -/

def State.txtRun (s : State) : Bool := (s.reg .txt 0x000).getLsbD 0
/-- TXT_SCFG.CTX: 0 acts as 1, values above 8 as 8. -/
def State.txtContexts (s : State) (n : StallId) : Nat := max 1 (min 8 ((s.reg .txt (0x100 + 0x10 * n.val)).toNat % 16))
def Serving.ctxUsed (v : Serving) (d : Die) : Nat := v.text.countP fun j => j.die = d && j.ctx

def TextWork.rank : TextWork → Nat
  | .out _ => 0 | .pack _ => 1 | .token _ => 2 | .tokenise _ => 3

/-- The jobs that may take a step, best first: started ones that wait for nothing, then, while a context is free, the unstarted work of each class from the oldest. -/
def Serving.readyJobs (v : Serving) (d : Die) (ctxs : Nat) : List TextJob :=
  let open_ := decide (v.ctxUsed d < ctxs)
  let listed := v.text.filter fun j => j.die = d && !j.line && j.held.isEmpty && (j.ctx || open_)
  let new := if open_ then (v.queue d 8).map (fun e => TextWork.out e) ++ (v.queue d 5).map (fun e => TextWork.pack e) else []
  let all := listed ++ (List.zip (List.range new.length) new).map fun x => TextJob.new (v.nextText + x.1) d x.2
  (List.range 4).flatMap fun r => all.filter fun j => j.work.rank = r

/-- A job takes its first step: it holds a context, and its entry leaves the queue, whose older entries have left it before. -/
def Serving.beginJob (v : Serving) (d : Die) (j : TextJob) : Serving :=
  if j.ctx then v
  else
    let j' := { j with ctx := true }
    if v.text.any fun x => x.id = j.id then { v with text := v.text.map fun x => if x.id = j.id then j' else x }
    else
      let v := match j.work with
        | .out _ => v.setQueue d 8 ((v.queue d 8).drop 1)
        | .pack _ => v.setQueue d 5 ((v.queue d 5).drop 1)
        | _ => v
      { v with nextText := max v.nextText (j.id + 1), text := v.text ++ [j'] }

/-- One step of the text engine of a die for a Stall: the first ready job whose table line is held takes it; a job that meets a line not held waits for it,
and the turn passes on (R263). Which lines the cache holds is open (log 42). A last step waits, too, for what it reads and writes in the Commons, in flash and in imports. -/
def State.textTurn (s : State) (n : StallId) (d : Die) : List TextJob → State
  | [] => s
  | j :: js =>
    if !j.ctx && decide (s.txtContexts n ≤ (s.serving[n]).ctxUsed d) then s.textTurn n d js
    else
    let miss := !j.filled && decide (s.free % 2 = 1)
    let s := if j.filled then s else s.useFree
    let s := s.modSrv n fun v => v.beginJob d j
    if miss then (s.modText n j.id fun j => some { j with line := true }).textTurn n d js
    else
      let last := decide (s.jobSteps n j ≤ j.taken + 1)
      let io := if last then s.jobRanges n j else ([], [])
      if !s.ready (vfOf n) io.1 io.2 then (s.seek (vfOf n) d io.1 io.2).textTurn n d js
      else
        let s := (s.count (some n) 0x060 1).modText n j.id fun j => some { j with taken := j.taken + 1, filled := false }
        if last then s.finishText n { j with taken := j.taken + 1, ctx := true } else s

def State.textStep (s : State) (n : StallId) (d : Die) : State :=
  if s.txtRun then s.textTurn n d ((s.serving[n]).readyJobs d (s.txtContexts n)) else s

end Sys2Proof.Machine
end

