-- ==== Sys2Proof/Machine/FlashOps.lean ====
section
/-! DEFINITION. The flash translation layer: blocks, placement, reads, programs and moves (R355–R359). -/
namespace Sys2Proof.Machine

def State.modFlash (s : State) (g : FlashSt → FlashSt) : State := s.modMem fun m => { m with flash := g m.flash }

/-! ### Blocks -/

/-- The flash channel of a block: 636,000 blocks of a die pair over 32 channels (Table 14.5). -/
def blockChannel (b : Nat) : Nat := b / 2 ^ 20 * 32 + b % 2 ^ 20 / 19875
/-- The block of a place of the map, and its NAND page there: a place is the page's number over the device, plus 1 (R355). -/
def placeBlock (k : Nat) : Nat := (k - 1) / 2048
def placePage (k : Nat) : Nat := (k - 1) % 2048
/-- NAND pages of a block: 24 MiB of 16 KiB pages. -/
def blockPages : Nat := 1536
/-- A block of one of the four die pairs, in service. -/
def FlashSt.blockOk (x : FlashSt) (b : Nat) : Bool := decide (b / 2 ^ 20 < 4) && decide (b % 2 ^ 20 < 636000) && !x.retired.contains b
def State.blockOk (s : State) (b : Nat) : Bool := s.mem.flash.blockOk b
/-- What a block holds; none while it is free. -/
def FlashSt.block (x : FlashSt) (b : Nat) : Option FlashBlock := mapGet none x.blocks b
/-- The owner's open block on a channel: one with pages left (R356). -/
def FlashSt.openBlock (x : FlashSt) (c owner : Nat) : Option (Nat × FlashBlock) :=
  x.blocks.findSome? fun e => match e.2 with
    | some y => if blockChannel e.1 = c ∧ y.owner = owner ∧ y.pages < blockPages ∧ !x.retired.contains e.1 then some (e.1, y) else none
    | none => none
/-- The free block with the lowest erase count on a channel (R357). Of the blocks never erased, one with a low number is looked at for each that a list names. -/
def FlashSt.freeBlock (x : FlashSt) (c : Nat) : Option Nat :=
  let first := c / 32 * 2 ^ 20 + c % 32 * 19875
  let low := (List.range (min 19875 (x.blocks.length + x.retired.length + x.erases.length + 1))).map (· + first)
  let l := (low ++ (x.erases.map (·.1)).filter fun b => blockChannel b = c).filter fun b => (x.block b).isNone && x.blockOk b
  match l with
  | [] => none
  | b :: bs => some (bs.foldl (fun m b => if mapGet 0 x.erases b < mapGet 0 x.erases m then b else m) b)

/-! ### Programs (R341, R355–R357) -/

/-- The slot of the image that a function's flash data belongs to; 65,536 for PF0's own. -/
def State.flashOwner (s : State) (f : Fn) : Nat := match stallOf f with | some n => (s.imageNamed n).1 | none => 65536
/-- A function's next sectors for a die pair, of those that `p` admits: up to one NAND page of them. -/
def FnMem.nextSecs (m : FnMem) (d : Nat) (p : Nat → Bool) : List (Nat × Bool) := (m.wbuf.filter fun x => decide ((sectorDie x.1).val = d) && p x.1).take 4
/-- Sectors take their place on flash; a committed one takes it in its image too. -/
def State.placeSecs (s : State) (f : Fn) (l : List (Nat × Bool)) (k : Nat) : State :=
  let s := s.modFnMem f fun m => { m with wbuf := m.wbuf.filter (fun x => !l.contains x), secs := l.foldl (fun a x => mapSet 0 a x.1 k) m.secs }
  match stallOf f with
  | some n =>
    let id := s.imageNamed n
    s.modMem fun m => { m with images := m.images.map fun (i : Image) =>
      if i.slot = id.1 ∧ i.gen = id.2 then { i with secs := l.foldl (fun a x => if x.2 then mapSet 0 a x.1 k else a) i.secs } else i }
  | none => s
/-- Every commit record of a function's image is on flash (R429). -/
def State.onFlash (s : State) (f : Fn) : State :=
  match stallOf f with
  | some n =>
    let id := s.imageNamed n
    (match s.imageOf n with
     | some i => s.modMem fun m => { m with onFlash := (m.onFlash.filter fun j => !(decide (j.slot = id.1) && decide (j.gen = id.2))) ++ [i] }
     | none => s)
  | none => s
/-- One NAND page is programmed on a channel with a function's next sectors: in the owner's open block there, else in the free block with the lowest erase count.
FTL_HOSTW, FTL_NANDW and FLASH_PROG count it. None where no sector or no block is at hand. -/
def State.programPage (s : State) (f : Fn) (c : Nat) (p : Nat → Bool) : Option State :=
  let l := (s.mem.fns[f]).nextSecs (c / 32) p
  let owner := s.flashOwner f
  let at_ := ((s.mem.flash.openBlock c owner).map fun x => (x.1, x.2.pages)).orElse fun _ => (s.mem.flash.freeBlock c).map fun b => (b, 0)
  if l.isEmpty then none
  else at_.map fun b =>
    let s := (s.placeSecs f l (b.1 * 2048 + b.2 + 1)).modFlash fun x =>
      { x with hostW := x.hostW + BitVec.ofNat 64 (4096 * l.length), nandW := x.nandW + 16384, blocks := mapSet none x.blocks b.1 (some ⟨owner, b.2 + 1⟩) }
    let s := if (s.mem.fns[f]).wbuf.any (·.2) then s else s.onFlash f
    s.count (stallOf f) 0x075 l.length
/-- All that stands in a function's share is programmed, on channels of the device's choice (log 3). `fuel`: sectors left. -/
def State.programAllFuel (s : State) (f : Fn) : Nat → State
  | 0 => s
  | k + 1 =>
    match (s.mem.fns[f]).wbuf with
    | [] => s
    | x :: _ => match s.programPage f ((sectorDie x.1).val * 32 + s.free % 32) (fun _ => true) with
      | some t => t.useFree.programAllFuel f k
      | none => s.useFree.programAllFuel f k
def State.programAll (s : State) : State := (List.finRange 17).foldl (fun s f => s.programAllFuel f (s.mem.fns[f]).wbuf.length) s

/-- What a reset or a loss of power finds in the write buffer is programmed from it; until it is, the images stand as their last records on flash have them (R346, R429). -/
def State.saveBuffer (s : State) : State := s.programAll.modMem fun m => { m with onFlash := s.mem.onFlash }

/-! ### Reads (R340, R358) -/

/-- A tier change's page has been read whole. -/
def Alloc.readDone (a : Alloc) (k : Nat) : Alloc := { a with move := a.move.map fun m => { m with reads := m.reads.filter (· ≠ k) } }
/-- One NAND page that a function waits for is read on a channel, and its block counts the read. None where nothing waits there. -/
def State.readPage (s : State) (f : Fn) (c : Nat) : Option State :=
  ((s.mem.fns[f]).rdQ.find? fun k => blockChannel (placeBlock k) = c).map fun k =>
    let s := s.modFlash fun x => { x with reads := mapSet 0 x.reads (placeBlock k) (mapGet 0 x.reads (placeBlock k) + 1) }
    s.modFnMem f fun m => { m with rdQ := m.rdQ.filter (· ≠ k), allocs := m.allocs.map fun a => a.readDone k }

/-! ### Moves (R356–R359) -/

/-- WEAR_WARN when FTL_LIFE.USED reaches 90 (R359). -/
def State.wearCheck (s : State) : State := if !s.mem.flash.warned ∧ 90 ≤ s.mem.flash.used then (s.modFlash fun x => { x with warned := true }).raise .ftl 0x8 else s
/-- The places of the map that lie in a block, in force or committed, ascending: its valid NAND pages. -/
def State.placesIn (s : State) (b : Nat) : List Nat :=
  let at_ := fun (m : AMap Nat) => (m.map (·.2)).filter fun k => decide (placeBlock k = b)
  ((s.mem.fns.toList.flatMap fun m => at_ m.secs) ++ s.mem.images.flatMap fun i => at_ i.secs).foldl setInsert []
/-- Every place in block `b` becomes the place of the same rank in block `dst`. -/
def movePlace (l : List Nat) (dst : Nat) (k : Nat) : Nat := match l.findIdx? (· = k) with | some i => dst * 2048 + i + 1 | none => k
def moveSecs (l : List Nat) (dst : Nat) (m : AMap Nat) : AMap Nat := m.map fun e => (e.1, movePlace l dst e.2)
/-- A function's places follow a block that moves. -/
def FnMem.follow (x : FnMem) (l : List Nat) (dst : Nat) : FnMem :=
  { x with secs := moveSecs l dst x.secs, rdQ := x.rdQ.map (movePlace l dst)
           allocs := x.allocs.map fun a => { a with move := a.move.map fun v => { v with reads := v.reads.map (movePlace l dst) } } }
/-- A block is erased: it is free, with one more erase and no reads. -/
def FlashSt.erase (x : FlashSt) (b : Nat) : FlashSt :=
  { x with blocks := mapSet none x.blocks b none, erases := mapSet 0 x.erases b (mapGet 0 x.erases b + 1), reads := mapSet 0 x.reads b 0, moving := x.moving.filter fun y => y.1 ≠ b }
/-- A block's valid pages are programmed into a free block of its channel, the map follows them, and the block is erased (R356–R358). A block that holds nothing is
erased only; one whose channel has no free block stays as it is. -/
def State.moveBlock (s : State) (b : Nat) : State :=
  let l := s.placesIn b
  let wipe := fun (s : State) => (s.modFlash fun x => x.erase b).wearCheck
  match s.mem.flash.block b, s.mem.flash.freeBlock (blockChannel b) with
  | some y, some dst =>
    if l.isEmpty then wipe s
    else wipe (s.modMem fun m =>
      { m with fns := m.fns.map fun x => x.follow l dst
               images := m.images.map fun i => { i with secs := moveSecs l dst i.secs }
               onFlash := m.onFlash.map fun i => { i with secs := moveSecs l dst i.secs }
               flash := { m.flash with blocks := mapSet none m.flash.blocks dst (some ⟨y.owner, l.length⟩), nandW := m.flash.nandW + BitVec.ofNat 64 (16384 * l.length) } })
  | some _, none => if l.isEmpty then wipe s else s
  | none, _ => wipe s
/-- A block's data is to move in a leftover turn of the provider: wear levelling, or a refresh (R357, R358). -/
def State.askMove (s : State) (b : Nat) (refresh : Bool) : State :=
  s.modFlash fun x => { x with moving := if x.moving.any fun y => y.1 = b then x.moving.map fun y => if y.1 = b then (b, y.2 || refresh) else y else x.moving ++ [(b, refresh)] }

/-- Programs also need the bank at V_RES or above (R421). -/
def State.ftlPrograms (s : State) : Bool := s.ftlRuns && decide (s.power.vres ≤ s.power.bankV)

end Sys2Proof.Machine
end

