-- ==== Sys2Proof/Machine/Txns.lean ====
section
/-! DEFINITION. Transactions of a Stall (R353, R354, R378, R380): how they start, and what their failure does. -/
namespace Sys2Proof.Machine

def State.txnsOf (s : State) (n : StallId) : List Txn := s.fabric.txns[n]
def State.setTxns (s : State) (n : StallId) (l : List Txn) : State := s.modFabric fun x => { x with txns := x.txns.set n l }
def State.dropTxn (s : State) (n : StallId) (tid : Nat) : State := s.setTxns n ((s.txnsOf n).filter fun t => t.tid ≠ tid)

/-- The row and part numbers of the reads that wait for remote parts. -/
def Serving.modReads (v : Serving) (p : GRead → Bool) (g : GRead → GRead) : Serving := { v with reads := v.reads.map fun r => if p r then g r else r }

/-- Blocks of imports have come for the accesses that wait for them. -/
def FnMem.land (m : FnMem) (a k : Nat) : FnMem := { m with poolIn := (List.range k).foldl (fun l i => setInsert l (a / 64 + i)) m.poolIn }
/-- Poison the blocks of a read that failed (Table 15.8). -/
def State.markBlocks (s : State) (f : Fn) (a k : Nat) : State := (List.range k).foldl (fun s i => s.markMem f (a + 64 * i)) s

/-- The bytes of a part that have come, zero where none has. -/
def partSoFar (got : List (Nat × List Byte)) : List Byte :=
  let n := got.foldl (fun m x => max m (x.1 + x.2.length)) 0
  (List.range n).map fun i => (got.findSome? fun x => if x.1 ≤ i then x.2[i - x.1]? else none).getD 0
/-- A transaction ends without an OK answer (Table 15.8). -/
def State.txnFail (s : State) (n : StallId) (k : TxnKind) : State :=
  match k with
  | .read _ _ a blocks => s.markBlocks (vfOf n) a blocks
  | .fetch _ a blocks => (s.markBlocks (vfOf n) a blocks).modFnMem (vfOf n) fun m => m.land a blocks
  | .write _ _ _ _ => s.count (some n) 0x082 1
  | .put _ _ _ _ => s.count (some n) 0x082 1
  | .amo t reg _ _ =>
    let s := s.modTile t fun tl => { tl with amo := tl.amo.filter fun x => x.1 ≠ reg }
    if (s.tiles[t]).run.any fun r => r.stall = n then (s.cutKernel t).kernelFault t .poison 0 else s
  | .part die table row part got =>
    -- What of the part has come stays; its missing bytes read as zero.
    s.modSrv n fun v => v.modReads (fun r => r.die = die && r.table = table && r.row = row && r.missing.contains part) fun r =>
      { r with missing := r.missing.filter (· ≠ part), got := r.got ++ [(part, partSoFar got)], timedOut := true }

/-- The bytes and marks of blocks of a tile store or of global memory. -/
def Tile.blocks (t : Tile) (a k : Nat) : List Byte × List Bool := (t.read a (64 * k), (List.range k).map fun i => t.marked (a + 64 * i) 64)

/-- Where a dmaout's bytes for a global address lie in the tile store. -/
def Dma.source (d : Dma) (a : Nat) : Nat :=
  ((List.range d.rows).findSome? fun i => let x := d.ga + i * d.stride; if x ≤ a ∧ a < x + d.len then some (d.ts + i * d.len + (a - x)) else none).getD d.ts

/-- The request packet of a transaction (Tables 15.5, 15.6); none where no binding or object names its peer. -/
def State.request (s : State) (n : StallId) (tid : Nat) (k : TxnKind) : Option Packet :=
  let f := vfOf n
  let id := (s.reg .trf 0x008).toNat % 256
  let hops := max 1 ((s.reg .trf 0x000).toNat % 16)
  let pool : Nat → Option (Nat × Nat × Nat × Nat) := fun a => match s.allocAt f a with
    | some x => (s.boundStall n (x.peer.toNat % 256)).map fun (r : StallId) => (x.peer.toNat % 256, r.val + 16 * n.val, x.exp.toNat, a - x.base)
    | none => none
  let hdr := fun (ty : Nat) (pl : Nat × Nat × Nat × Nat) (plen nblk : Nat) => mkHeader ty (s.stallClass n) pl.1 id pl.2.1 hops plen 0 tid pl.2.2.1 nblk 0 pl.2.2.2
  match k with
  | .read _ _ a blocks => (pool a).map fun pl => Packet.seal ⟨hdr 1 pl 0 blocks, [], []⟩
  | .fetch _ a blocks => (pool a).map fun pl => Packet.seal ⟨hdr 1 pl 0 blocks, [], []⟩
  | .put _ a bytes marks => (pool a).map fun pl => Packet.seal ⟨hdr 2 pl (2 * marks.length) marks.length, bytes, marks⟩
  | .write t tag a blocks => (pool a).map fun pl =>
    match (s.tiles[t]).tags[tag] with
    | some d => let b := (s.tiles[t]).blocks (d.source a) blocks; Packet.seal ⟨hdr 2 pl (2 * blocks) blocks, b.1, b.2⟩
    | none => Packet.seal ⟨hdr 2 pl (2 * blocks) blocks, List.replicate (64 * blocks) 0, []⟩
  | .amo _ _ a v => (pool a).map fun pl => Packet.seal ⟨hdr 3 pl 1 0, toBytesLE 32 v.toNat, []⟩
  | .part _ table row part _ =>
    match (s.serving[n]).keep.tables.find? (fun x => x.handle = table) with
    | some t => match t.parts[part]? with
      | some p => (s.boundStall n p.module_).map fun r =>
          Packet.seal ⟨mkHeader 4 (s.stallClass n) p.module_ id (r.val + 16 * n.val) hops 0 0 tid p.handle 0 row (p.bytes * 2 ^ 16), [], []⟩
      | none => none
    | none => none

/-- The B-die at which a transaction's packet waits for a slice turn. -/
def txnDie : TxnKind → Die
  | .read t _ _ _ => tileDie t
  | .write t _ _ _ => tileDie t
  | .amo t _ _ _ => tileDie t
  | .fetch d _ _ => d
  | .put d _ _ _ => d
  | .part d _ _ _ _ => d

def epKey (d : Die) (owner : Nat) : Nat := d.val * 17 + owner
def State.epPush (s : State) (d : Die) (owner : Nat) (k : Packet) : State :=
  s.modFabric fun x => { x with epOut := mapSet [] x.epOut (epKey d owner) (mapGet [] x.epOut (epKey d owner) ++ [k]) }

/-! ### Answers (R379) -/

def partFirst (k : Packet) : Nat := k.offset % 2 ^ 15
def partBytes (k : Packet) : Nat := k.offset / 2 ^ 16

/-- A response to a request (Table 15.5). -/
def State.response (s : State) (k : Packet) (status aux : Nat) (pay : List Byte) (marks : List Bool) : Packet :=
  let plen := (pay.length + 31) / 32
  Packet.seal { hdr := mkHeader (k.ty + 0x80) k.cls k.src s.moduleId (k.srcStall.val + 16 * k.dstStall.val) (max 1 ((s.reg .trf 0x000).toNat % 16)) plen status k.tid k.target k.nblk aux
                         (if k.ty = 4 then 0 else k.offset), pay := pay ++ List.replicate (32 * plen - pay.length) 0, marks }
/-- A response waits for its owner's slice turn: the Stall's while it works, else the provider's. -/
def State.answerPacket (s : State) (d : Die) (k : Packet) (r : Packet) : State := s.epPush d (if k.cls = 16 ∨ !s.works k.dstStall then 16 else k.dstStall.val) r

/-- A TID for a new transaction: one that is free and not awaited late; else the one awaited late for longest (R381, log 101). -/
def State.freeTid (s : State) (n : StallId) : Option Nat :=
  ((List.range 4096).find? fun i => !((s.txnsOf n).any fun t => t.tid = i) && !(s.fabric.late[n]).contains i).orElse fun _ => (s.fabric.late[n]).head?
/-- Start one waiting transaction; one that names no peer fails at once. -/
def State.startTxn (s : State) (n : StallId) (k : TxnKind) : State :=
  match s.freeTid n with
  | none => s
  | some tid => match s.request n tid k with
    | some p => ((s.setTxns n (s.txnsOf n ++ [{ tid, kind := k, since := s.now }])).modFabric fun x => { x with late := x.late.set n ((x.late[n]).filter (· ≠ tid)) }).epPush (txnDie k) n.val p
    | none => s.txnFail n k

/-- Start waiting transactions while a TID is free (R380). -/
def State.pumpTxns (s : State) (n : StallId) : State :=
  let room := 4096 - (s.txnsOf n).length
  let l := (s.fabric.want[n]).take room
  let s := s.modFabric fun x => { x with want := x.want.set n ((x.want[n]).drop room) }
  l.foldl (fun s k => s.startTxn n k) s
def State.wantTxns (s : State) (n : StallId) (l : List TxnKind) : State := if l.isEmpty then s else (s.wantMore n l).pumpTxns n

/-- Does a DMA of a tile, or an amoadd, still wait for the fabric? -/
def State.txnBusy (s : State) (n : StallId) (p : TxnKind → Bool) : Bool := (s.txnsOf n).any (fun t => p t.kind) || (s.fabric.want[n]).any p
def TxnKind.dma (t : TileId) (tag : Fin 16) : TxnKind → Bool
  | .read u g _ _ => decide (u = t) && decide (g = tag)
  | .write u g _ _ => decide (u = t) && decide (g = tag)
  | _ => false
def TxnKind.amoOf (t : TileId) (reg : Fin 32) : TxnKind → Bool
  | .amo u r _ _ => decide (u = t) && decide (r = reg)
  | _ => false

/-- A row read of a split table asks for its remote parts (R240). -/
def State.startParts (s : State) (n : StallId) (r : GRead) : State :=
  match (s.serving[n]).keep.tables.find? (fun x => x.handle = r.table) with
  | none => s
  | some t =>
    let id := (s.reg .trf 0x008).toNat % 256
    let l := (List.range t.parts.length).filter fun i => match t.parts[i]? with | some p => decide (p.module_ ≠ id) | none => false
    let s := s.modSrv n fun v => v.modReads (fun x => x = r) fun x => { x with started := true, missing := l }
    s.wantTxns n (l.map fun i => .part r.die r.table r.row i [])

end Sys2Proof.Machine
end

