-- ==== Sys2Proof/Machine/Start.lean ====
section
/-! DEFINITION. Starting a fetched descriptor: Stall state, opcode, reserved bytes, administrative ring, FENCE (R63, R295, R296, R405). -/
namespace Sys2Proof.Machine

/-- The body fields of each opcode (Tables 12.2, 12.3, 14.3): offset and bytes; none for an opcode that no table gives. -/
def bodyFields (op : Nat) : Option (List (Nat × Nat)) :=
  match op with
  | 0x01 => some [(0x10, 0x4E), (0x60, 8)]
  | 0x02 => some [(0x10, 7)]
  | 0x03 => some [(0x10, 14)]
  | 0x08 => some [(0x10, 12), (0x20, 8)]
  | 0x09 => some [(0x10, 4)]
  | 0x10 => some [(0x10, 8)]
  | 0x11 => some [(0x10, 4)]
  | 0x12 => some [(0x10, 8)]
  | 0x13 => some [(0x10, 4)]
  | 0x14 => some [(0x10, 4), (0x18, 12)]
  | 0x15 => some [(0x10, 8)]
  | 0x16 => some [(0x10, 3)]
  | 0x17 => some [(0x10, 8)]
  | 0x20 => some [(0x10, 14)]
  | 0x21 => some [(0x10, 4), (0x18, 12), (0x28, 8)]
  | 0x22 => some [(0x10, 8)]
  | 0x23 => some [(0x10, 4)]
  | 0x28 => some [(0x10, 8)]
  | 0x29 => some [(0x10, 4), (0x18, 12), (0x28, 16)]
  | 0x2A => some [(0x10, 4)]
  | 0x30 => some [(0x10, 8)]
  | 0x31 => some [(0x10, 8)]
  | 0x32 => some [(0x10, 12)]
  | 0x33 => some [(0x10, 4), (0x18, 20)]
  | 0x34 => some [(0x10, 8)]
  | 0x40 => some [(0x10, 15)]
  | 0x41 => some [(0x10, 8)]
  | 0x42 => some [(0x10, 16)]
  | 0x43 => some [(0x10, 12)]
  | 0x44 => some [(0x10, 24)]
  | 0x45 => some [(0x10, 24)]
  | 0x46 => some [(0x10, 10)]
  | 0x47 => some [(0x10, 1)]
  | 0x48 => some [(0x10, 8)]
  | _ => none

/-- Is every reserved byte zero: FLAGS[15:1], 0x08–0x0F and the bytes of the body that no field covers (R296)? -/
def Cmd.reservedZero (c : Cmd) (fields : List (Nat × Nat)) : Bool :=
  decide (c.u 2 2 < 2) && decide (c.u 8 8 = 0) && (List.range 112).all fun i => fields.any (fun x => x.1 ≤ 16 + i && decide (16 + i < x.1 + x.2)) || decide (c.u (16 + i) 1 = 0)

/-- The commands of ring 0 (Table 12.2). -/
def adminOp (op : Nat) : Bool := decide (0x08 ≤ op) && decide (op ≤ 0x17)
def memOp (op : Nat) : Bool := decide (0x40 ≤ op) && decide (op ≤ 0x48)

/-- A memory command, on a VF or PF0. -/
def State.runMemory (s : State) (c : Cmd) : State :=
  match c.op with
  | 0x40 => s.startMemAlloc c
  | 0x41 => s.startMemFree c
  | 0x42 => s.startMemSync c
  | 0x43 => s.startMemMove c
  | 0x44 => s.startHostCopy c true
  | 0x45 => s.startHostCopy c false
  | 0x46 => s.startExport c
  | 0x47 => s.startUnexport c
  | _ => s.startQuery c

/-- Every other command, for the Stall of its VF. -/
def State.runStallCmd (s : State) (n : StallId) (c : Cmd) : State :=
  match c.op with
  | 0x01 => s.startRequest n c
  | 0x02 => s.startCancel n c
  | 0x03 => s.startDispatch n c
  | 0x08 => s.startDobLoad n c
  | 0x09 => s.startDobUnload n c
  | 0x10 => s.startProgBind n c
  | 0x11 => s.startProgRetire n c
  | 0x12 => s.startMdlReg n c
  | 0x13 => s.startMdlRetire n c
  | 0x14 => s.startAdpLoad n c
  | 0x15 => s.startCltSet n c
  | 0x16 => s.startPfxDrop n c
  | 0x17 => s.startSrvCfg n c
  | 0x20 => s.startIdxRegister n c
  | 0x28 => s.startTblRegister n c
  | 0x29 => s.startTblCmd n c
  | 0x2A => s.startTblCmd n c
  | 0x30 => s.startVocabReg n c
  | 0x31 => s.startGrammarReg n c
  | 0x32 => s.startTemplateReg n c
  | 0x33 => s.startTokenise n c
  | 0x34 => s.startTxtRetire n c
  | _ => s.startIdxCmd n c

/-- The Stall of a ring has become DRYING or DRY: its descriptors complete at once with NO_STALL (R63). -/
def State.ringGone (s : State) (f : Fn) : Bool :=
  match stallOf f with
  | some n => decide (s.stallState n = .dry) || decide (s.stallState n = .drying)
  | none => false

/-- Start a descriptor: the Stall's state first (R63), then its form (R296), then the command. -/
def State.startCmd (s : State) (c : Cmd) : State :=
  if s.ringGone c.f then s.finish c .noStall
  else match bodyFields c.op, stallOf c.f with
    | none, _ => s.finish c .badDesc
    | some l, none => if memOp c.op && c.reservedZero l then s.runMemory c else s.finish c .badDesc
    | some l, some n =>
      if c.op = 0x32 ∧ c.r ≠ 0 then s.finish c .badText
      else if !c.reservedZero l || (adminOp c.op && decide (c.r ≠ 0)) then s.finish c .badDesc
      else if memOp c.op then s.runMemory c
      else s.runStallCmd n c

/-! ### What a descriptor names in memory

A command that reads or writes memory as it starts waits until it can: for the Commons turn of its Stall (R81), for the blocks of imports to come (R354), for flash
reads that FTL_CTRL.RUN holds (R362), and for staging pages (R340). -/

/-- What the bytes that a command names name in their turn: the lists of a table, the strings of a vocabulary, the arrays of a grammar or a template. -/
def State.cmdLists (s : State) (f : Fn) (c : Cmd) : List (Nat × Nat) :=
  let u := fun (o n : Nat) => s.readNat f (c.u 0x10 8 + o) n
  match c.op with
  | 0x28 => if u 0 1 = 1 ∧ 1 < u 3 1 ∧ u 3 1 ≤ 16 then [(u 0x20 8, 16 * u 3 1)] else if u 0 1 = 2 ∧ u 8 4 ≤ 256 then [(u 0x20 8, 32 * u 8 4)] else []
  | 0x30 => if u 0 4 ≤ 262144 ∧ u 4 4 ≤ 262144 then [(u 8 8, 8 * u 0 4), (u 0x18 8, 12 * u 4 4)] else []
  | 0x31 => if u 0 4 ≤ 65536 then [(u 8 8, 512 * u 0 4), (u 0x10 8, (u 0 4 + 7) / 8)] else []
  | 0x32 => if u 0 4 ≤ 256 ∧ u 4 4 ≤ 256 ∧ u 8 4 ≤ 4096 then [(c.u 0x10 8, 16 + 4 * u 4 4 + 8 * u 0 4 + 4 * u 8 4)] else []
  | _ => []
/-- The strings of the vocabulary that a TXT_VOCAB_REG names (Table 11.3). -/
def State.cmdStrings (s : State) (f : Fn) (c : Cmd) : List (Nat × Nat) :=
  let u := fun (o n : Nat) => s.readNat f (c.u 0x10 8 + o) n
  if c.op = 0x30 ∧ u 0 4 ≤ 262144 then
    (List.range (u 0 4)).map fun i => let e := s.readNat f (u 8 8 + 8 * i) 8; (u 0x10 8 + e % 2 ^ 32, e / 2 ^ 32 % 256)
  else []
/-- What a command's descriptor names for it to read as it starts. -/
def Cmd.reads (c : Cmd) : List (Nat × Nat) :=
  match c.op with
  | 0x01 => [(c.u 0x18 8, 16 * c.u 0x16 2)]
  | 0x03 => if c.u 0x18 4 ≤ 1024 then [(c.u 0x10 8, 72 * c.u 0x18 4)] else []
  | 0x08 => if c.u 0x18 4 ≤ 2 ^ 24 then [(c.u 0x10 8, c.u 0x18 4)] else []
  | 0x10 => [(c.u 0x10 8, 256)]
  | 0x12 => [(c.u 0x10 8, 64)]
  | 0x17 => [(c.u 0x10 8, 128)]
  | 0x20 => if c.u 0x18 4 ≤ 256 then [(c.u 0x10 8, 64 * c.u 0x18 4)] else []
  | 0x28 => [(c.u 0x10 8, 64)]
  | 0x30 => [(c.u 0x10 8, 64)]
  | 0x31 => [(c.u 0x10 8, 64)]
  | 0x32 => [(c.u 0x10 8, 16)]
  | 0x33 => if c.u 0x12 2 ≤ 16 then [(c.u 0x18 8, 16 * c.u 0x12 2)] else []
  | _ => []
/-- Everything that a command of a Stall reads as it starts, as far as it is known: what the descriptor names, and once that can be read, what it names in its turn. -/
def State.cmdReads (s : State) (f : Fn) (c : Cmd) : List (Nat × Nat) :=
  if !s.ready f c.reads [] then c.reads
  else
    let l := c.reads ++ s.cmdLists f c
    if s.ready f l [] then l ++ s.cmdStrings f c else l
/-- What a command of a Stall writes as it starts: the header of a request, handles, a program record. -/
def State.cmdWrites (s : State) (n : StallId) (c : Cmd) : List (Nat × Nat) :=
  match c.op with
  | 0x01 => [(c.u 0x20 8, 64)]
  | 0x08 => [(c.u 0x20 8, 2 * s.readNat (vfOf n) (c.u 0x10 8 + 0x12) 2)]
  | 0x10 => [((s.serving[n]).keep.cfg.prog, 0x4000)]
  | _ => []
/-- The reads and writes of a command's start; none for one that its Stall's state or its form refuses before any. -/
def State.cmdRanges (s : State) (c : Cmd) : List (Nat × Nat) × List (Nat × Nat) :=
  match bodyFields c.op, stallOf c.f with
  | some l, some n =>
    if s.ringGone c.f || !c.reservedZero l || ((adminOp c.op || decide (c.op = 0x32)) && decide (c.r ≠ 0)) then ([], [])
    else ((s.cmdReads c.f c).filter fun x => s.covered c.f x.1 x.2, s.cmdWrites n c)
  | _, _ => ([], [])
/-- May a command start, as far as memory goes? -/
def State.cmdReady (s : State) (c : Cmd) : Bool := let x := s.cmdRanges c; s.ready c.f x.1 x.2
/-- A command reads what it names, and starts. -/
def State.beginCmd (s : State) (c : Cmd) : State := (s.noteReads c.f (s.cmdRanges c).1).startCmd c
def State.seekCmd (s : State) (c : Cmd) : State := let x := s.cmdRanges c; s.seek c.f 0 x.1 x.2

/-- Start a descriptor, which then runs until its completion is posted. -/
def State.launch (s : State) (c : Cmd) : State :=
  let s := s.modRing c.f c.r fun g => { g with running := g.running ++ [c.ord] }
  if s.cmdReady c then s.beginCmd c else (s.seekCmd c).modRing c.f c.r fun g => { g with gated := g.gated ++ [c] }
/-- Descriptors that waited for memory start when they can. -/
def State.pumpGated (s : State) (f : Fn) (r : RingId) : State :=
  (s.ring f r).gated.foldl (fun s c =>
    if s.cmdReady c then (s.modRing f r fun g => { g with gated := g.gated.filter (· ≠ c) }).beginCmd c else s.seekCmd c) s

/-- A fetched descriptor starts, or waits behind a FENCE (R296). In DRYING or DRY it completes at once, whatever it is (R63). -/
def State.offer (s : State) (c : Cmd) : State :=
  let g := s.ring c.f c.r
  if s.ringGone c.f || (g.waiting.isEmpty && (!c.fence || g.running.isEmpty)) then s.launch c else s.modRing c.f c.r fun g => { g with waiting := g.waiting ++ [c] }

/-- The descriptor that may start next on a ring. -/
def Ring.startable (g : Ring) : Option Cmd :=
  match g.waiting with
  | c :: _ => if !c.fence || g.running.isEmpty then some c else none
  | [] => none

def State.nextWaiting (s : State) : Option Cmd :=
  (List.finRange 17).findSome? fun f => (List.finRange 8).findSome? fun r => (s.ring f r).startable

/-- Start the waiting descriptors that nothing holds back any longer; `k` bounds them. -/
def State.settleFuel (s : State) : Nat → State
  | 0 => s
  | k + 1 => match s.nextWaiting with
    | some c => ((s.modRing c.f c.r fun g => { g with waiting := g.waiting.drop 1 }).launch c).settleFuel k
    | none => s

/-- Descriptors held by FENCE in all. -/
def State.waitingCount (s : State) : Nat := ((List.finRange 17).map fun f => ((List.finRange 8).map fun r => (s.ring f r).waiting.length).sum).sum
/-- What starts once a step has changed what holds descriptors back. -/
def State.pumpStall (s : State) (n : StallId) : State := (s.pumpSearch n).pumpTables n
/-- What waits for memory goes on, for one function. -/
def State.pumpFn (s : State) (f : Fn) : State := (List.finRange 8).foldl (fun s r => s.pumpGated f r) (((s.pumpMem f).pumpQueries f).pumpCopyIn f)
def State.settle (s : State) : State :=
  let s := (List.finRange 17).foldl State.pumpFn s
  let s := allStalls.foldl State.pumpStall s
  let s := (s.settleFuel s.waitingCount).pumpUnits
  allStalls.foldl State.pumpTxns s

/-- A rejected write is recorded in the page of the function that made it (R50): cause 0 RUNNING, 1 LOCKED, 2 PARTIAL, 3 UNMAPPED. -/
def State.reject (s : State) (f : Fn) (off : Nat) (cause : BitVec 3) : State :=
  let s := s.modHost f fun h => { h with rejAddr := BitVec.ofNat 32 off, rejCause := cause, rejCount := if h.rejCount = 0xFFFF then h.rejCount else h.rejCount + 1 }
  match stallOf f with
  | some n => s.raise (.vf n) 0x1
  | none => (s.raise .glb 0x1).count none 0x332 1

/-- The device is READY and not in the fatal state (R501, R444). -/
def State.up (s : State) : Bool := decide (s.mgt.stage = 9) && s.power.commit.isNone
/-- An event takes one BCLK; a device that is not READY takes none of these (R500). -/
def ev (f : State → State) (s : State) : Out := .next (let s := s.tick; if s.up then f s else s)
/-- An event after which descriptors held back may start. -/
def evs (f : State → State) (s : State) : Out := ev (fun s => (f s).settle) s
/-- What the host does over its link, which must be up (R400, R501). -/
def evl (f : State → State) (s : State) : Out := ev (fun s => if s.mgt.linkUp then f s else s) s
/-- A write of a GLB, RAS or MGT register of PF0: these answer in the fatal state too (R444). -/
def evr (f : State → State) (s : State) : Out :=
  .next (let s := s.tick; if s.mgt.linkUp && (decide (s.mgt.stage = 11) || s.up) then f s else s)
/-- A host command after which descriptors held back may start. -/
def evls (f : State → State) (s : State) : Out := evl (fun s => (f s).settle) s

end Sys2Proof.Machine
end

