-- ==== Sys2Proof/Machine/Tiles.lean ====
section
/-! DEFINITION. The commands of tiles beside instructions: taking work (R130–R132), bounds (R109) and quarantine (R139–R141, R448). -/
namespace Sys2Proof.Machine

/-- Neighbours of a tile on its die's 8 × 8 grid, in the order of R130. -/
def tileNeighbours (t : TileId) : List TileId :=
  let x := t.val % 8
  let y := t.val / 8 % 8
  let d := t.val / 64 * 64
  ((if x < 7 then [d + y * 8 + x + 1] else []) ++ (if 0 < x then [d + y * 8 + x - 1] else []) ++ (if y < 7 then [d + y * 8 + x + 8] else []) ++
    (if 0 < y then [d + y * 8 + x - 8] else [])).map (Fin.ofNat 256 ·)

/-- A queue of work: a segment or the inbox of the die. -/
inductive WorkQueue where
  | seg (t : TileId)
  | inbox
deriving DecidableEq, Repr

/-- The queues that a tile searches, in order; true where taking counts as stealing (steps 2 to 4 of R130). -/
def searchOrder (t : TileId) : List (WorkQueue × Bool) :=
  let nb := tileNeighbours t
  let rest := ((List.range 63).map fun i => (Fin.ofNat 256 (t.val / 64 * 64 + (t.val + 1 + i) % 64) : TileId)).filter fun u => !nb.contains u
  (.seg t, false) :: (nb.map fun u => (.seg u, true)) ++ [(.inbox, true)] ++ rest.map fun u => (.seg u, true)

def Serving.work (v : Serving) (d : Die) : WorkQueue → List Item
  | .seg t => v.segment t
  | .inbox => v.inboxOf d
def Serving.popWork (v : Serving) (d : Die) : WorkQueue → Serving
  | .seg t => v.setSegment t ((v.segment t).drop 1)
  | .inbox => v.setInbox d ((v.inboxOf d).drop 1)

/-- A queue of a Stall on a die from which an item has been taken. -/
structure Taken where
  stall : StallId
  die   : Die
  queue : WorkQueue
deriving DecidableEq, Repr

/-- The queue whose oldest item the tile takes: the first that fits the time left (R130), past those of which another tile has the item (R131). -/
def State.findWork (s : State) (n : StallId) (t : TileId) (left : Nat) (gone : List Taken) : Option (WorkQueue × Bool × Item) :=
  (searchOrder t).findSome? fun (q, steal) =>
    if gone.contains ⟨n, tileDie t, q⟩ then none else
    match (s.serving[n]).work (tileDie t) q with
    | i :: _ => if (s.serving[n]).bound i.handle ≤ left then some (q, steal, i) else none
    | [] => none

/-- An idle tile in a slot takes an item and starts its kernel; `gone` names the queues of which lower-numbered tiles took the item in this CCLK. -/
def State.takeItem (s : State) (t : TileId) (gone : List Taken) : State × List Taken :=
  match s.tileSlot t with
  | none => (s, gone)
  | some e =>
    let n := (s.schedEntry e.val).stall
    if !(s.tiles[t]).idle || (s.tiles[t]).quar ≠ .none || (s.tiles[t]).staged.isSome then (s, gone)
    else match s.findWork n t (s.cclkLeft (s.slotEnd e)) gone with
      | none => (s, gone)
      | some (q, steal, i) =>
        let s := s.modSrv n fun v => v.popWork (tileDie t) q
        let s := if steal then (s.modTile t fun tl => { tl with steals := tl.steals + 1 }).count (some n) 0x021 1 else s
        (s.startItem n t i, gone ++ [⟨n, tileDie t, q⟩])
/-- Tiles that reach for work in one CCLK: of those that reach for one item the lowest-numbered takes it, the others go on at their next queue (R131). -/
def State.takeItems (s : State) (l : List TileId) : State := ((allTiles.filter fun t => l.contains t).foldl (fun (x : State × List Taken) t => x.1.takeItem t x.2) (s, [])).1
def execTileTakeItem (l : List TileId) (s : State) : Out := ev (fun s => s.takeItems l) s
/-- The search that an idle tile repeats at least once every 1 µs (R131). -/
def execTileSearchTimer (t : TileId) (s : State) : Out := ev (fun s => s.takeItems [t]) s

/-- A kernel that has run BOUND is stopped, when its slot does not end first (R109, R136). -/
def State.boundReached (s : State) (t : TileId) : State :=
  match (s.tiles[t]).run, s.tileSlot t with
  | some r, some e => if s.boundAt r ≤ s.slotEnd e then (s.until (s.boundAt r)).kernelOverrun t 1 else s
  | _, _ => s
def execKernelBoundReached (t : TileId) (s : State) : Out := evs (fun s => s.boundReached t) s

/-- Quarantine once the running kernel has ended (Table 5.5). -/
def State.quarAfter (s : State) (t : TileId) (cause : BitVec 4) : State :=
  if (s.tiles[t]).quar ≠ .none then s
  else if (s.tiles[t]).run.isSome then s.modTile t fun tl => { tl with quar := .pending cause }
  else s.quarantine t cause
/-- TIL_CTRL.QUAR written 1. -/
def execTileQuarantineRequest (t : TileId) (s : State) : Out := evs (fun s => s.quarAfter t 1) s

/-- An uncorrectable error in the tile: quarantine at once; a running kernel ends with POISON (R139, R442). -/
def State.tileUncorr (s : State) (t : TileId) : State :=
  match (s.tiles[t]).quar with
  | .none | .pending _ =>
    let s := s.uncorrectable 0x04 (s.tiles[t]).owner 4 t.val 0
    if (s.tiles[t]).run.isSome then ((s.modTile t fun tl => { tl with quar := .pending 2 }).cutKernel t).kernelFault t .poison 0 else s.quarantine t 2
  | _ => s
def execTileUncorrError (t : TileId) (s : State) : Out := evs (fun s => s.tileUncorr t) s

/-- RAS_TILECFG.CE_LIMIT; 0 acts as 1. -/
def State.ceLimit (s : State) : Nat := max 1 ((s.reg .ras 0x008).toNat % 256)
/-- `k` corrected errors of a tile: each is recorded; above the limit the tile enters quarantine (R439, R448). -/
def State.tileCe (s : State) (t : TileId) (k : Nat) : State :=
  let s := (List.range k).foldl (fun s _ => s.corrected 0x04 (s.tiles[t]).owner t.val 0) s
  let s := s.modTile t fun tl => { tl with ce := tl.ce + k }
  if s.ceLimit < (s.tiles[t]).ce ∧ (s.tiles[t]).quar = .none then (s.raise .ras 0x8).quarAfter t 3 else s
def execTileCeLimit (t : TileId) (k : Nat) (s : State) : Out := evs (fun s => s.tileCe t k) s

/-- RELEASE on a quarantined tile begins its self-test; on any other tile it changes nothing in the tile (R141). A tile stays quarantined through its self-test and until it
returns: a write then is accepted, and starts no second test (DEDUCED, log 89). -/
def State.tileRelease (s : State) (t : TileId) : State :=
  match (s.tiles[t]).quar with
  | .quar c => s.modTile t fun tl => { tl with quar := .selftest c }
  | .selftest _ => s
  | .passed _ => s
  | .none => if s.halted then s else s.reject pf0 (0x10000C + t.val * 0x100) 0
  | .pending _ => if s.halted then s else s.reject pf0 (0x10000C + t.val * 0x100) 0
def execTileRelease (t : TileId) (s : State) : Out := ev (fun s => s.tileRelease t) s

/-- The self-test of 120 µs ends: passed, the store is zero and the tile waits for the boundary; failed, it stays with QCAUSE 4 (R141). -/
def State.selftestDone (s : State) (t : TileId) (pass : Bool) : State :=
  match (s.tiles[t]).quar with
  | .selftest c =>
    if pass then s.modTile t fun tl => { tl with quar := .passed c, store := [], marks := [] } else s.quarantine t 4
  | _ => s
def execTileSelftestDone (t : TileId) (pass : Bool) (s : State) : Out := ev (fun s => s.selftestDone t pass) s

end Sys2Proof.Machine
end

