-- ==== Sys2Proof/Machine/StallOps.lean ====
section
/-! DEFINITION. What the Stall commands, the resets and the Churn share: counters, image installation and commit, stopping a Stall's work (R54–R65, R342, R464–R470, R486, R497). -/
namespace Sys2Proof.Machine

/-! ### Counters (R484, R486) -/

/-- The 16 counters, snapshots and selectors of a Stall become zero. -/
def State.clearCounters (s : State) (n : StallId) : State :=
  let lo := regKey (.vfCnt n) 0
  let page := fun (k : Nat) => decide (lo ≤ k) && decide (k < lo + 0x200)
  { s with counters := mapDrop (fun k => decide (k / 64 = n.val)) s.counters, regs := mapDrop page s.regs, pendT := mapDrop page s.pendT }

/-! ### Provider commands (R350, R352) -/

/-- A provider command ends. -/
def State.endProv (s : State) (st : Code) : State := (s.modMem fun m => { m with prov := none, presStatus := st }).raise .mem 0x2
/-- A tier change is given up: pages that it has moved to flash stay there (R350). -/
def Alloc.stopMove (a : Alloc) : Alloc :=
  { a with move := none, upTo := match a.move with | some m => if a.tier = .hbm ∧ m.dest = .flash then max a.upTo m.done else a.upTo | none => a.upTo }
/-- A running demotion of a Stall stops: what is changed stays changed (R350). -/
def State.stopDemote (s : State) : State :=
  match s.mem.prov with
  | some (.demote n _ freed skipped _) =>
    let s := s.modFnMem (vfOf n) fun m => { m with allocs := m.allocs.map fun a => if (a.move.any fun x => x.cmd.isNone) then a.stopMove else a }
    ((s.modMem fun m => { m with pfreed := BitVec.ofNat 32 freed, presSkipped := BitVec.ofNat 16 skipped }).endProv .cancelled).pumpFrees (vfOf n)
  | _ => s
def State.demoting (s : State) (n : StallId) : Bool := match s.mem.prov with | some (.demote k _ _ _ _) => k = n | _ => false

/-! ### Images (R60, R322, R342, R343) -/

/-- Allocations as an image's committed table holds them: no work in progress, no imports. -/
def committedAllocs (l : List Alloc) : List Alloc :=
  (l.filter fun a => a.tier ≠ .pool).map fun a => { a.stopMove with dirty := [], zeroing := none, freeing := none }
/-- Registrations as they return: finished, nothing pending. -/
def Retained.settled (k : Retained) : Retained :=
  { k with containers := k.containers.filter (fun c => !c.unloading), adapters := k.adapters.map (fun a => { a with next := none, old := none, queue := [] }),
           clients := k.clients.map (fun c => { c with next := none }), cfg := { k.cfg with trig := k.cfg.next.getD k.cfg.trig, next := none },
           indexes := k.indexes.filter (fun x => !x.retiring), tables := k.tables.filter fun t => t.ready && !t.retiring,
           vocabs := k.vocabs.filter (fun x => x.ready) }
/-- Does an address lie in the map of a registered table, which is retained state (R258)? -/
def Retained.inMap (k : Retained) (x : Nat) : Bool :=
  k.tables.any fun t => !t.passage && decide (t.map ≤ x) && decide (x < t.map + t.mapBytes)
/-- The poisoned blocks of a function's space that meet `p`, by address / 64 (R440). -/
def State.marksOf (s : State) (f : Fn) (p : Nat → Bool) : List Nat := s.marksIn f p
def State.modImage (s : State) (slot gen : Nat) (g : Image → Image) : State :=
  s.modMem fun m => { m with images := m.images.map fun i => if i.slot = slot ∧ i.gen = gen then g i else i }
/-- The stepping of this module in GLB_IDENT (Table 0.2: letter B, digit 0). -/
def stepping : BitVec 8 := 0x10
/-- The commit record of drying covers the whole image (R342, R343). -/
def State.commitImage (s : State) (n : StallId) : State :=
  let f := vfOf n
  let id := s.imageNamed n
  let v := s.serving[n]
  let m := s.mem.fns[f]
  s.modImage id.1 id.2 fun i =>
    { i with allocs := committedAllocs m.allocs, secs := m.secs, cells := m.back, marks := m.backMarks, keep := v.keep.settled, saves := v.saves, step := stepping }

/-- The key of every byte of a function's own space. -/
def ownKey (f : Fn) (k : Nat) : Bool := decide (k / 2 ^ 48 = f.val)
/-- Nothing of a function's space is left, in memory, in the base caches or on the ring. -/
def MemUnit.wipe (m : MemUnit) (f : Fn) : MemUnit :=
  { m with cells := mapDrop (ownKey f) m.cells, poison := m.poison.filter fun b => !ownKey f (b * 64),
           cache := m.cache.map fun l => l.filter fun x => x.stall.val ≠ f.val, ring := mapDrop (fun k => decide (k % 17 = f.val)) m.ring
           fns := m.fns.set f { FnMem.reset with qfail := (m.fns[f]).qfail } }

/-- An image's pages and registrations come into the Stall's space; its allocations take their places in the Stall's groups (R59, R60). -/
def State.installImage (s : State) (n : StallId) (i : Image) : State :=
  let f := vfOf n
  let same := i.step = stepping
  let allocs := (i.allocs.filter fun a => same || !a.device).map fun a => { a with groups := if a.tier = .hbm then s.placeGroups f false a.place else [] }
  let keep := if same then i.keep else { i.keep with containers := [] }
  let s := s.modMem fun m =>
    let m := m.wipe f
    { m with cells := i.cells.foldl (fun c x => if allocs.any (fun a => a.holds x.1) then mapSet 0 c (f.val * 2 ^ 48 + x.1) x.2 else c) m.cells
             poison := i.marks.foldl (fun p b => if allocs.any (fun a => a.holds (b * 64)) then setInsert p ((f.val * 2 ^ 48 + b * 64) / 64) else p) m.poison }
  (s.modFnMem f fun m => { m with allocs, secs := i.secs, back := i.cells, backMarks := i.marks }).modSrv n fun v => { v with keep, saves := i.saves }
/-- The places on flash of an image's HBM-resident pages: what its freshening reads (R59). -/
def Image.loads (i : Image) : List Nat :=
  ((i.secs.filter fun x => i.allocs.any fun a => decide (a.tier = .hbm) && a.retain && a.holds (x.1 * 4096)).map (·.2)).eraseDups

/-- Do the image's HBM-resident pages, which step 3 copies, fit the HBM quota and every channel group (R59, R60, log 80)? -/
def State.imageFits (s : State) (n : StallId) (i : Image) : Bool :=
  let pages := (i.allocs.filter fun a => decide (a.tier = .hbm) && a.retain && !a.device).map fun a => (a.units, s.placeGroups (vfOf n) false a.place)
  decide ((pages.map (·.1)).sum ≤ s.quotaHbm n) && pages.all (fun p => !p.2.isEmpty) &&
    (s.stallGroups n).all fun g => decide ((pages.map fun p => shareIn p.2 (p.1 * 512) g).sum ≤ s.groupRoom g)

/-! ### Resources at freshening (R18, R56, R59, R470) -/

/-- A share in 1/64 of a queue (0–8) or of the walk contexts (9). -/
def State.shareOf (s : State) (n : StallId) (q : Nat) : Nat := min 64 (if q < 9 then s.shareField n q else (s.reg (.stl n) 0x48).toNat / 256 % 256)
def State.otherStalls (s : State) (n : StallId) : List StallId := allStalls.filter fun m => decide (m ≠ n) && decide (s.stallState m ≠ .dry)
def State.sharesOk (s : State) (n : StallId) : Bool :=
  (List.range 10).all fun q => decide (s.shareOf n q + ((s.otherStalls n).map fun m => s.shareOf m q).sum ≤ 64)
def State.waysFree (s : State) (n : StallId) : Bool := (s.otherStalls n).all fun m => (List.range 4).all fun d => (s.wayMask n d &&& s.wayMask m d) = 0
/-- Is every channel group of the Stall zero-filled since its last owner (R470)? -/
def State.groupsClean (s : State) (n : StallId) : Bool := (s.stallGroups n).all fun g => !s.mem.unclean.contains g
def State.imageShared (s : State) (n : StallId) : Bool := (s.otherStalls n).any fun m => decide (s.imageNamed m = s.imageNamed n)
/-- Step 1 of R59. -/
def State.resourcesOk (s : State) (n : StallId) : Bool :=
  s.sharesOk n && s.waysFree n && s.groupsClean n && !s.imageShared n && (match s.imageOf n with | some i => s.imageFits n i | none => true)

/-! ### The state of a Stall -/

/-- VF_STATUS.STATE_CHG follows every change of the state (Table 16.6). -/
def State.setStall (s : State) (n : StallId) (st : StallState) (step : StallStep) : State :=
  let changed := s.stallState n ≠ st
  let s := s.modStall n fun x => { x with state := st, step }
  if changed then s.raise (.vf n) 0x2 else s
/-- A Stall command ends (R58). -/
def State.endCmd (s : State) (n : StallId) (st : Code) : State := (s.modStall n fun x => { x with last := st }).raise (.stl n) 0x1
/-- The STALL record of the log (Table 20.7): Stall, state, STL_LESSEE, CHN_NUM. -/
def State.logStall (s : State) (n : StallId) (code : Nat) : State :=
  s.log 0x000D (toBytesLE 1 n.val ++ toBytesLE 1 code ++ toBytesLE 2 0 ++ toBytesLE 4 (s.reg (.stl n) 0x0C).toNat ++ toBytesLE 8 s.churn.num.toNat)
def State.keySlot (s : State) (n : StallId) (on : Bool) : State :=
  s.modSec fun x => { x with kslots := if on then x.kslots ||| BitVec.twoPow 18 n.val else x.kslots &&& ~~~(BitVec.twoPow 18 n.val) }
/-- Key slot n and the Stall key are erased (R62 step 5, R472). -/
def State.eraseKeys (s : State) (n : StallId) : State := (s.keySlot n false).modSec fun x => { x with certs := x.certs.set n none }

/-! ### Stopping what a Stall has in progress -/

/-- Commands of a Stall that have started and not completed, requests apart. -/
def Serving.openCmds (v : Serving) : List Cmd :=
  v.loading.map (·.cmd) ++ v.cancels.map (·.cmd) ++ v.idxCmds.map (·.cmd) ++ v.tblCmds.map (·.cmd) ++ v.vocabCmds.map (·.1) ++ v.retires ++
    v.keep.adapters.flatMap (fun a => a.next.toList.map (·.1) ++ a.old.toList.map (·.1) ++ a.queue) ++
    v.text.filterMap fun j => match j.work with | .tokenise c => some c | _ => none
def FnMem.openCmds (m : FnMem) : List Cmd := m.allocs.flatMap (fun a => a.zeroing.toList ++ (a.move.bind (·.cmd)).toList ++ a.freeing.toList) ++ m.syncs.map (·.cmd) ++ m.queries
/-- Descriptors of a function's rings that wait for memory. -/
def HostFn.gatedCmds (h : HostFn) : List Cmd := h.rings.toList.flatMap (·.gated)

/-- A running update or sweep of an index stops: operations in progress still end, those that wait are not applied, and what is applied is published at the next boundary
(R215). A sweep stops between two of its steps. -/
def IdxCmd.stopped (y : IdxCmd) : Option IdxCmd :=
  match y.run with
  | .update ops ores =>
    let l := ops.filter fun o => !o.st.waits
    if l.isEmpty then none else some { y with run := if l.all fun o => o.st.isDone then .applied else .update (ops.map fun o => if o.st.waits then { o with st := .done } else o) ores }
  | .sweep _ => none
  | _ => some y
/-- An update ends at once: what is applied is published at the next boundary. Walks do not survive drying. -/
def IdxCmd.cut (y : IdxCmd) : Option IdxCmd :=
  match y.run with
  | .update ops _ => if ops.any (fun o => o.st.isDone) then some { y with run := .applied } else none
  | .sweep _ => none
  | _ => some y
/-- A running TBL_REPLACE restores every map entry that it changed and publishes nothing; the slots that it took are free again (R258). -/
def State.undoReplace (s : State) (n : StallId) (y : TblCmd) : State :=
  let undo := fun (x : Replacing) => match (s.serving[n]).table? y.handle with
    | some t =>
      let f := vfOf n
      let s := x.changed.reverse.foldl (fun s m => (s.writeMem f (t.map + 16 * m.row) m.was t.die).writeMem f (t.freeAt m.pos) (toBytesLE 4 m.slot) t.die) s
      s.modSrv n fun v => (v.modTable t.handle fun t => { t with free := x.changed.map (fun m => (m.pos, m.slot)) ++ t.free, old := x.back }).dropTblCmd y.cmd
    | none => s
  match y.run with
  | .running x => undo x
  | .applied x => undo x
  | _ => s

/-- Every item of the Stall is discarded, queued or staged (R129). -/
def State.dropItems (s : State) (n : StallId) : State :=
  let s := s.modSrv n fun v => { v with segs := [], inbox := [] }
  { s with tiles := s.tiles.map fun t => if t.owner = some n then { t with staged := none } else t }

/-- Transactions and packets of a Stall that have not been answered or sent are gone. -/
def State.dropTxns (s : State) (n : StallId) : State :=
  s.modFabric fun x => { x with txns := x.txns.set n [], late := x.late.set n (x.late[n] ++ (x.txns[n]).map (·.tid)), want := x.want.set n [], epOut := mapDrop (fun k => decide (k % 17 = n.val)) x.epOut }

/-- Cancel every request of a Stall as R319 does. -/
def State.markAll (s : State) (n : StallId) : State :=
  let l := ((s.serving[n]).requests.filter fun q => !q.cancelled).map (·.tag)
  (l.foldl (fun s t => s.cancelMark n t) s).dropCancelled n

/-! ### Entering FRESH and DRY -/

/-- The transfer time of one row of tile stores, in 10 ns (R76, Table 3.11). DESIGN CHOICE: 0xFFFF for a Stall that holds no channel group (log 95). -/
def rowTimeOf (groups : Nat) : BitVec 16 := if groups = 0 then 0xFFFF else BitVec.ofNat 16 (16777216 / (3328 * groups))

/-- The Stall becomes FRESH at a boundary (R59, R322, R451, R472). -/
def State.becomeFresh (s : State) (n : StallId) : State :=
  let f := vfOf n
  let s := s.setStall n .fresh .idle
  let s := s.modStall n fun x => { x with rowTime := rowTimeOf (s.stallGroups n).length }
  let s := s.modHost f fun h => { h with errCe := 0, errUe := 0, errAddr := 0 }
  let s := s.modSec fun x => { x with certs := x.certs.set n (some s.churn.num) }
  let k := (s.serving[n]).keep
  let s := k.programs.foldl (fun s p => s.writeMem f (k.cfg.prog + p.handle * 256) p.bytes) s
  (s.logStall n 1).endCmd n .ok

/-- No tile and no row keeps anything of a Stall that becomes DRY. -/
def Tile.disown (n : StallId) (t : Tile) : Tile :=
  if t.owner = some n ∧ t.run.isNone then { t with tags := Vector.replicate 16 none, amo := [], amoGot := [], mat := [], mv := [], mstl := none, owner := none, last := none } else t
def RowState.disown (n : StallId) (r : RowState) : RowState := if r.held = some n ∧ !r.switching then { r with held := none } else r

/-- The Stall enters DRY with everything that was its own scrubbed (R62, R468, R486). What still ran of its commands ends CANCELLED. -/
def State.becomeDry (s : State) (n : StallId) (st : Code) : State :=
  let f := vfOf n
  let s := ((s.serving[n]).openCmds ++ (s.mem.fns[f]).openCmds ++ s.host[f].copies.map (·.cmd) ++ s.host[f].gatedCmds).foldl (fun s c => s.finish c .cancelled) s
  let s := (s.modMem fun m => m.wipe f).modHost f fun h => { h with copies := [], rings := h.rings.map fun (g : Ring) => { g with gated := [] } }
  let s := (s.modSrv n fun v => { Serving.reset with charged := v.charged, nWalks := v.nWalks, nHits := v.nHits, nTokens := v.nTokens, resetting := v.resetting,
                                                     resetSlots := v.resetSlots }).dropTxns n
  let s := ({ s with tiles := s.tiles.map (Tile.disown n) } : State).modChurn fun c => { c with rows := c.rows.map (RowState.disown n) }
  let s := (s.eraseKeys n).modSec fun x => { x with scrub := x.scrub.set n (true, (x.scrub[n]).2 + 1) }
  let s := (s.clearCounters n).setStall n .dry .idle
  (s.logStall n 0).endCmd n st

/-- A freshening fails or is aborted: key slot n is erased and the clean-up of R61 runs; the Stall stays FRESHENING. -/
def State.failFreshen (s : State) (n : StallId) (st : Code) : State := (s.eraseKeys n).modStall n fun x => { x with step := .cleanup st }

end Sys2Proof.Machine
end

