-- ==== Sys2Proof/Machine/Stalls.lean ====
section
/-! DEFINITION. The Stall commands of STL_CMD and the steps of freshening and drying (R57–R65, R519). -/
namespace Sys2Proof.Machine

/-- FRESHEN: in DRY, steps 1 and 2 of R59, and the image load begins: what it reads waits for flash turns. In any other state NO_STALL. -/
def State.freshen (s : State) (n : StallId) : State :=
  if s.stallState n ≠ .dry then s.endCmd n .noStall
  else
    let s := (s.setStall n .freshening .loading).modStall n fun x => { x with since := s.now }
    if !s.resourcesOk n then s.failFreshen n .quota
    else match s.imageOf n with
      | some i => if i.good then (s.keySlot n true).modFnMem (vfOf n) fun m => m.askFlash i.loads else s.failFreshen n .keyFail
      | none => s.failFreshen n .keyFail
def execFreshen (n : StallId) (s : State) : Out := evl (fun s => s.freshen n) s

/-- Step 3 of R59 ends: an uncorrectable flash error fails with POISON; otherwise, with every page read, the Stall waits for the next boundary. -/
def State.imageLoaded (s : State) (n : StallId) (poison : Bool) : State :=
  match (s.stalls[n]).step with
  | .loading =>
    if poison then (s.raise .ftl 0x1).failFreshen n .poison
    else if !(s.mem.fns[vfOf n]).rdQ.isEmpty then s
    else match s.imageOf n with
      | some i => (s.installImage n i).modStall n fun x => { x with step := .loaded }
      | none => s.failFreshen n .keyFail
  | _ => s
def execImageLoadDone (n : StallId) (poison : Bool) (s : State) : Out := ev (fun s => s.imageLoaded n poison) s

/-- ABORT: in FRESHENING it stops the load; during a clean-up it merges into it (R58, R519). -/
def State.abortFreshen (s : State) (n : StallId) : State :=
  if s.stallState n ≠ .freshening then s.endCmd n .noStall
  else match (s.stalls[n]).step with
    | .cleanup _ => s
    | _ => s.failFreshen n .cancelled
def execAbort (n : StallId) (s : State) : Out := evl (fun s => s.abortFreshen n) s

/-- The clean-up of R61 ends with the status of what failed. -/
def State.cleanupDone (s : State) (n : StallId) : State :=
  match (s.stalls[n]).step with
  | .cleanup st => s.becomeDry n st
  | _ => s
def execFreshenCleanupDone (n : StallId) (s : State) : Out := evs (fun s => s.cleanupDone n) s

/-- The requests of a Stall that no CANCEL has taken. -/
def State.liveTags (s : State) (n : StallId) : List Word := ((s.serving[n]).requests.filter fun q => !q.cancelled).map (·.tag)

/-- Step 1 of R62: admission stops, and a demotion of the Stall stops (R350). -/
def State.beginDrying (s : State) (n : StallId) (left : Nat) : State :=
  let s := (s.setStall n .drying (.draining left)).modStall n fun x => { x with since := s.now }
  if s.demoting n then s.stopDemote else s
/-- STL_DRAIN_LIMIT.LIMIT; 0 acts as 1. -/
def State.drainLimit (s : State) (n : StallId) : Nat := max 1 ((s.reg (.stl n) 0x18).toNat % 256)
/-- DRY_DRAIN: requests in flight go on for up to LIMIT Churns. -/
def State.dryDrain (s : State) (n : StallId) : State :=
  if s.fresh? n then s.beginDrying n (s.drainLimit n) else s.endCmd n .noStall
def execDryDrain (n : StallId) (s : State) : Out := evls (fun s => s.dryDrain n) s
/-- DRY_CUT: every request in flight is cancelled at once, as R319 and R320 state. -/
def State.dryCut (s : State) (n : StallId) : State :=
  if s.fresh? n then let s := s.beginDrying n 0; s.cancelAll n (s.liveTags n) else s.endCmd n .noStall
def execDryCut (n : StallId) (s : State) : Out := evls (fun s => s.dryCut n) s
/-- The limit of a DRY_DRAIN expires: the rest is cancelled. -/
def State.drainLimitReached (s : State) (n : StallId) : State :=
  match (s.stalls[n]).step with
  | .draining 0 => s.cancelAll n (s.liveTags n)
  | _ => s
def execDrainLimitReached (n : StallId) (s : State) : Out := evs (fun s => s.drainLimitReached n) s

/-- The save area of a tile in a Stall: its store and its marks (R75). -/
def State.saveTile (s : State) (n : StallId) (t : TileId) : State :=
  if (s.tiles[t]).quar.held then s
  else s.modSrv n fun v => { v with saves := mapSet ([], []) v.saves t.val ((s.tiles[t]).store, (s.tiles[t]).marks) }
def State.saveRow (s : State) (n : StallId) (r : RowId) : State := (rowTiles r).foldl (fun s t => s.saveTile n t) s
def State.modRow (s : State) (r : RowId) (g : RowState → RowState) : State := s.modChurn fun c => { c with rows := c.rows.set r (g c.rows[r]) }

/-- Step 4 of R62: the dirty lines go to their homes (R331), the maps of tables are kept (R258), and every dirty page and dirty staging page waits to be copied (R343). -/
def State.beginWriteback (s : State) (n : StallId) : State :=
  let f := vfOf n
  let s := (s.cleanLines f 0 commonsBase).writeBack f (s.serving[n]).keep.inMap
  (s.modFnMem f fun m => { m with copyQ := m.copyQ ++ ((m.dirtyPages 0 commonsBase).eraseDups.filter fun p => !m.copyQ.contains p) }).pumpCopies f
/-- Step 3 of R62 ends: the tile stores still held for the Stall are saved. A switch of the Stall's rows that still runs ends first. -/
def State.tileSaveDone (s : State) (n : StallId) : State :=
  match (s.stalls[n]).step with
  | .saving =>
    if s.churn.rows.any fun r => r.switching && (decide (r.held = some n) || decide (r.incoming = some n)) then s
    else
      let s := (allRows.filter fun r => (s.churn.rows[r]).held = some n).foldl (fun s r => (s.saveRow n r).modRow r fun x => { x with held := none }) s
      (s.beginWriteback n).modStall n fun x => { x with step := .writingBack }
  | _ => s
def execDryTileSaveDone (n : StallId) (s : State) : Out := ev (fun s => s.tileSaveDone n) s

/-- Step 4 of R62 ends, with every copy on flash, with the commit record of the whole image (R342, R343); step 5 erases the key slot. -/
def State.writebackDone (s : State) (n : StallId) : State :=
  match (s.stalls[n]).step with
  | .writingBack =>
    let m := s.mem.fns[vfOf n]
    if !m.copyQ.isEmpty || !m.wbuf.isEmpty then s
    else ((s.commitImage n).onFlash (vfOf n)).eraseKeys n |>.modStall n fun x => { x with step := .scrubbing }
  | _ => s
def execDryWritebackDone (n : StallId) (s : State) : Out := ev (fun s => s.writebackDone n) s

/-- Steps 6 and 7 of R62. -/
def State.scrubDone (s : State) (n : StallId) : State :=
  match (s.stalls[n]).step with
  | .scrubbing => s.becomeDry n .ok
  | _ => s
def execDryScrubDone (n : StallId) (s : State) : Out := evs (fun s => s.scrubDone n) s

/-! ### What a Churn boundary does to a Stall -/

/-- Has step 2 of R62 ended before this BCLK? -/
def State.drainedNow (s : State) (n : StallId) : Bool :=
  (match (s.stalls[n]).step with | .draining _ => true | _ => false) && (s.serving[n]).requests.isEmpty
/-- Step 3 of R62 begins: items are discarded, index commands stop, and a replacement that has not published is undone. -/
def State.withdraw (s : State) (n : StallId) : State :=
  let s := (s.serving[n]).tblCmds.foldl (fun s y => s.undoReplace n y) s
  ((s.dropItems n).modSrv n fun v => { v with idxCmds := v.idxCmds.filterMap IdxCmd.cut, walks := [], disps := [], batches := [] }).modStall n fun x => { x with step := .saving }
/-- The transitions of a boundary: FRESH after a load, step 3 after a drain, one Churn of the drain limit less. `done`: step 2 had ended before. -/
def State.stallBoundary (s : State) (done : StallId → Bool) (n : StallId) : State :=
  match (s.stalls[n]).step with
  | .loaded => s.becomeFresh n
  | .draining k => if done n then s.withdraw n else s.modStall n fun x => { x with step := .draining (k - 1) }
  | _ => s

/-! ### Stall reset (R497) -/

/-- Rings, requests and counters of a Stall reset's end; RESET_DONE. -/
def State.resetEnd (s : State) (n : StallId) : State :=
  let s := (s.serving[n]).requests.foldl (fun s q => s.releaseReq n q) s
  let s := ((s.dropItems n).modSrv n fun v => { v with batches := [], resetting := false, resetSlots := [] }).pumpRetires n
  let s := s.modHost (vfOf n) fun h => { h with rings := h.rings.map fun (g : Ring) => { Ring.reset with nextOrd := g.nextOrd } }
  (s.clearCounters n).raise (.vf n) 0x8
/-- Pending class T values of STL n and of the VF's pages are discarded (R53). -/
def State.dropPending (s : State) (n : StallId) : State :=
  let stl := regKey (.stl n) 0
  { s with pendT := mapDrop (fun k => (decide (stl ≤ k) && decide (k < stl + 0x1000)) || decide (k / 2 ^ 28 = n.val)) s.pendT }
/-- The open slots of a Stall, by entry. -/
def State.slotsOf (s : State) (n : StallId) : List Nat :=
  (allRows.filterMap fun r => (s.churn.rows[r]).slot.bind fun e => if (s.schedEntry e.val).stall = n then some e.val else none).eraseDups
/-- A Stall reset begins: rings stop without posting, requests are cancelled, index and table commands stop. It ends with the Stall's slots open now. -/
def State.resetStall (s : State) (n : StallId) : State :=
  if (s.serving[n]).resetting then s
  else
    let f := vfOf n
    let s := s.modHost f fun h => { h with copies := [], rings := h.rings.map fun (g : Ring) => { g with en := false, running := [], waiting := [], gated := [] } }
    let s := (s.markAll n).dropPending n
    let s := (s.serving[n]).tblCmds.foldl (fun s y => s.undoReplace n y) s
    let s := s.modSrv n fun v => { v with resetting := true, cancels := [], idxCmds := v.idxCmds.filterMap IdxCmd.stopped }
    let s := s.clearCounters n
    let open_ := s.slotsOf n
    if open_.isEmpty then s.resetEnd n else s.modSrv n fun v => { v with resetSlots := open_ }
/-- A slot of the Stall has ended. -/
def State.resetSlotEnd (s : State) (n : StallId) (e : Nat) : State :=
  if (s.serving[n]).resetting then
    let s := s.modSrv n fun v => { v with resetSlots := v.resetSlots.filter (· ≠ e) }
    if (s.serving[n]).resetSlots.isEmpty then s.resetEnd n else s
  else s

end Sys2Proof.Machine
end

