-- ==== Sys2Proof/Machine/Churn.lean ====
section
/-! DEFINITION. The Churn: boundaries, slots, switches, wheel and Commons turns (R69–R82, R484, R518). -/
namespace Sys2Proof.Machine

/-! ### Class T values and counters (R42, R484) -/

/-- The counter whose selector a register key is: owner and number. -/
def selectorOf (k : Nat) : Option (Nat × Nat) :=
  match keyBlock k with
  | some (.vfCnt n, o) => if o % 0x20 = 0x10 then some (n.val, o / 0x20) else none
  | some (.mgt, o) => if 0x1000 ≤ o ∧ o < 0x1800 ∧ o % 0x20 = 0x10 then some (16, (o - 0x1000) / 0x20) else none
  | _ => none
def State.counter (s : State) (owner k : Nat) : Counter := mapGet Counter.zero s.counters (owner * 64 + k)
def State.setCounter (s : State) (owner k : Nat) (c : Counter) : State := { s with counters := mapSet Counter.zero s.counters (owner * 64 + k) c }
/-- Does a provider counter count BCLK (0x300), an event of the provider? -/
def State.countsBclk (s : State) (owner k : Nat) : Bool :=
  let sel := s.selector owner k
  decide (owner = 16) && sel.getLsbD 31 && decide (sel.toNat % 1024 = 0x300) && decide (sel.toNat / 2 ^ 16 % 4 ≠ 1)
/-- The count of a counter now. -/
def State.counterNow (s : State) (owner k : Nat) : BitVec 48 :=
  if s.countsBclk owner k then (s.counter owner k).cnt + BitVec.ofNat 48 (s.now - (s.counter owner k).base) else (s.counter owner k).cnt

/-- One pending value takes effect; a counter whose selector changes restarts at zero. -/
def State.applyOne (s : State) (k : Nat) (v : Word) : State :=
  let old := mapGet (regReset k) s.regs k
  let s := { s with regs := mapSet (regReset k) s.regs k v }
  match selectorOf k with
  | some (o, i) => if old = v then s else s.setCounter o i { s.counter o i with cnt := 0, base := s.now }
  | none => s
/-- Every pending class T value takes effect in one BCLK. -/
def State.applyPending (s : State) : State :=
  let l := s.pendT
  l.foldl (fun s x => match x.2 with | some v => s.applyOne x.1 v | none => s) { s with pendT := [] }

/-- Every counter into its SNAP, with the low half of the new CHN_NUM. -/
def State.snapOne (s : State) (num : Word) (owner k : Nat) : State :=
  let c := s.counter owner k
  s.setCounter owner k { c with snap := s.counterNow owner k, snapn := num }
def State.snapCounters (s : State) (num : Word) : State :=
  let s := allStalls.foldl (fun s n => (List.range 16).foldl (fun s k => s.snapOne num n.val k) s) s
  (List.range 64).foldl (fun s k => s.snapOne num 16 k) s

/-! ### Slots -/

/-- The rows on which an entry is open. -/
def State.rowsOpen (s : State) (e : SlotId) : List RowId := allRows.filter fun r => (s.churn.rows[r]).slot = some e
/-- Entries in force, as the bank and the Stall states stand now. -/
def State.liveNow (s : State) : List Nat :=
  let sk := s.skips.map (·.1)
  (List.range 512).filter fun i => (s.schedEntry i).v && !sk.contains i
def State.onRow (s : State) (r : RowId) (i : Nat) : Bool := (s.schedEntry i).rowList.contains r
/-- Of entries on a row, the one that starts first. -/
def State.firstOf (s : State) : List Nat → Option Nat
  | [] => none
  | i :: is => match s.firstOf is with
    | some j => if (s.schedEntry j).start < (s.schedEntry i).start then some j else some i
    | none => some i
/-- The next entry not skipped on a row from a time on, counting on into the next Churn (R75). -/
def State.nextOnRow (s : State) (live : List Nat) (r : RowId) (from_ : Nat) : Option Nat :=
  let l := live.filter fun i => s.onRow r i
  match s.firstOf (l.filter fun i => from_ ≤ (s.schedEntry i).start) with
  | some i => some i
  | none => s.firstOf l

/-- A switch of a row begins, or waits for the running one (R518). -/
def RowState.switchTo (r : RowState) (n : StallId) : RowState :=
  if r.switching then { r with queued := if r.incoming = some n then none else some (some n) }
  else if r.held = some n then r
  else { r with switching := true, incoming := some n }

/-- The tiles of a row that take part in a slot end: kernels are stopped, staged items go back (R74, R109, R133). A bound that falls due with the slot end is the cause (R136). -/
def State.stopTile (s : State) (n : StallId) (t : TileId) : State :=
  (s.kernelOverrun t (match (s.tiles[t]).run with | some r => if s.boundAt r ≤ s.now then 1 else 2 | none => 2)).unstage n t

/-- What waited for the end of a slot waits no longer for it (R288, R320). -/
def Serving.slotEnded (v : Serving) (e : Nat) : Serving :=
  { v with requests := v.requests.map fun q => { q with waitSlots := q.waitSlots.filter (· ≠ e) }
           lingering := (v.lingering.map fun x => (x.1.filter (· ≠ e), x.2)).filter fun x => !x.1.isEmpty }
/-- A slot ends at START + LENGTH (R75, R288, R320, R497). -/
def State.endSlot (s : State) (e : SlotId) : State :=
  let rows := s.rowsOpen e
  if rows.isEmpty then s
  else
    let n := (s.schedEntry e.val).stall
    let s := s.until (s.slotEnd e)
    let s := rows.foldl (fun s r => (rowTiles r).foldl (fun s t => s.stopTile n t) s) s
    let s := s.modChurn fun c => { c with ended := c.ended ++ [e.val], rows := c.rows.map fun (r : RowState) => if r.slot = some e then { r with slot := none } else r }
    let s := (s.modSrv n fun v => v.slotEnded e.val).cancelSettle n
    let s := (((s.batchSweep n).freeUnloaded n).pumpCancels n).resetSlotEnd n e.val
    let live := s.liveNow
    rows.foldl (fun s r => match s.nextOnRow live r (s.schedEntry e.val).stop with
      | some i => s.modRow r fun x => x.switchTo (s.schedEntry i).stall
      | none => s) s
def execSlotEnd (e : SlotId) (s : State) : Out := evs (fun s => s.endSlot e) s

/-- Slots that are open, in the order in which they end. -/
def State.openList (s : State) : List SlotId := (allRows.filterMap fun r => (s.churn.rows[r]).slot).eraseDups
def insertByEnd {α : Type} (key : α → Nat) (x : α) : List α → List α
  | [] => [x]
  | y :: ys => if key x < key y then x :: y :: ys else y :: insertByEnd key x ys
/-- End every open slot whose end has come by a time. -/
def State.endDue (s : State) (t : Nat) : State :=
  let l := (s.openList.filter fun e => s.slotEnd e ≤ t).foldr (insertByEnd fun e => s.slotEnd e) []
  l.foldl (fun s e => s.endSlot e) s

/-- A row is ready for a slot: it holds the Stall's state, no switch runs, its ballast is raised (R75, R77, R434). -/
def RowState.readyFor (r : RowState) (n : StallId) : Bool := !r.switching && decide (r.held = some n) && r.slot.isNone && r.ballast
def State.slotReady (s : State) (e : SlotId) : Bool :=
  let x := s.schedEntry e.val
  x.rowList.all fun r => (s.churn.rows[r]).readyFor x.stall
/-- A slot opens; late after its START (R77). -/
def State.openNow (s : State) (e : SlotId) (late : Bool) : State :=
  let x := s.schedEntry e.val
  let n := x.stall
  let s := x.rowList.foldl (fun s r => s.modRow r fun y => { y with slot := some e }) s
  let s := (s.modChurn fun c => { c with opened := c.opened ++ [e.val], late := c.late.filter (· ≠ e.val) }).count (some n) 0x002 1
  if late then ((s.raise .chn 0x1).raise (.stl n) 0x2).count (some n) 0x003 1 else s
/-- Late slots open once their rows are ready, while time is left. -/
def State.openLate (s : State) : State :=
  s.churn.late.foldl (fun s i =>
    let e : SlotId := Fin.ofNat 512 i
    if s.slotEnd e ≤ s.now then s.modChurn fun c => { c with late := c.late.filter (· ≠ i) }
    else if s.slotReady e then s.openNow e true else s) s
/-- START of a slot in BCLK. -/
def State.slotStart (s : State) (e : SlotId) : Nat := s.churn.boundaryAt + (s.schedEntry e.val).start * usBclk
/-- A slot's START comes. -/
def State.startSlot (s : State) (e : SlotId) : State :=
  if !s.churn.running || !s.entryLive e.val || s.churn.opened.contains e.val || s.churn.late.contains e.val || decide (s.slotEnd e ≤ s.now) then s
  else
    let s := s.until (s.slotStart e)
    let s := s.endDue s.now
    if s.slotReady e then s.openNow e false else s.modChurn fun c => { c with late := c.late ++ [e.val] }
def execSlotOpen (e : SlotId) (s : State) : Out := evs (fun s => s.startSlot e) s

/-! ### Switches (R75, R76) -/

/-- Restore a tile's store from the save area of a Stall, which reads zero where nothing was saved. -/
def State.restoreTile (s : State) (n : StallId) (t : TileId) : State :=
  if (s.tiles[t]).quar.held then s
  else
    let x : AMap Byte × List Nat := mapGet ([], []) (s.serving[n]).saves t.val
    s.modTile t fun (tl : Tile) => { tl with store := x.1, marks := x.2 }
/-- The units of a tile that takes part in a switch are idle (R166). -/
def State.rowIdle (s : State) (r : RowId) : Bool := (rowTiles r).all fun t => (s.tiles[t]).quar.held || (s.tiles[t]).idle
/-- A row's switch completes: saved, handed over, restored; a switch that waited begins; late slots may open. -/
def State.switchDone (s : State) (r : RowId) : State :=
  let x := s.churn.rows[r]
  if !x.switching || !s.rowIdle r then s
  else
    let s : State := match x.held with | some n => s.saveRow n r | none => s
    let s : State := match x.incoming with
      | some n => ((rowTiles r).foldl (fun (s : State) t => s.restoreTile n t) s).count (some n) 0x005 1
      | none => s
    let s := s.modRow r fun x =>
      let y : RowState := { x with held := x.incoming, switching := false, incoming := none, queued := none }
      match x.queued with
      | some (some n) => y.switchTo n
      | _ => y
    s.openLate
def execSwitchComplete (row : RowId) (s : State) : Out := evs (fun s => s.switchDone row) s

/-! ### The boundary (R69) -/

/-- Skips of the Churn that begins, with their events (R73). -/
def SkipReason.code : SkipReason → Nat
  | .invalid => 1 | .overlap => 2 | .notFresh => 3
def State.doSkips (s : State) : State :=
  let l := s.skips
  let s := s.modChurn fun c => { c with skipped := l.map (·.1) }
  (l.filter fun x => x.2 ≠ .notFresh).foldl (fun s x =>
    let n := (s.schedEntry x.1).stall
    let s := s.modChurn fun c => { c with skipReg := BitVec.ofNat 32 (s.bank * 2 ^ 24 + x.2.code * 2 ^ 16 + x.1) }
    ((s.raise .chn 0x2).raise (.stl n) 0x4).count (some n) 0x004 1) s

/-- HOME_IDLE (R16): requests are homed on a die on which the bank gives the Stall no slot. -/
def State.homeIdle (s : State) (n : StallId) : State :=
  let l := s.stallEntries n
  if (s.serving[n]).requests.any fun q => !l.any fun e => e.die = q.home then s.raise (.stl n) 0x8 else s

/-- An index whose update finished: its epoch is published and the command completes (R207). -/
def State.publishIndexes (s : State) (n : StallId) : State :=
  (s.serving[n]).idxCmds.foldl (fun s y =>
    match y.run with
    | .applied =>
      (s.modSrv n fun v => { (v.modIndex y.handle fun x => { x with epoch := x.epoch + 1 }) with idxCmds := v.idxCmds.filter fun z => z.cmd ≠ y.cmd }).finish y.cmd .ok
    | _ => s) s
/-- A table whose replacement has been applied: CUR_VERSION increments and the command completes (R254). -/
def State.publishTables (s : State) (n : StallId) : State :=
  (s.serving[n]).tblCmds.foldl (fun s y =>
    match y.run with
    | .applied x =>
      let s := s.modSrv n fun v => (v.modTable y.handle fun t => { t with version := t.version + 1, old := x.old }).dropTblCmd y.cmd
      s.finish y.cmd .ok (match (s.serving[n]).table? y.handle with | some t => t.version | none => 0)
    | _ => s) s
/-- Does a request pin a version of an adapter? -/
def Serving.pinned (v : Serving) (a m ver : Nat) : Bool := v.requests.any fun q => decide (q.adapter = some (a, ver)) && decide (v.reqModel q = some m)
/-- The load at the head of an adapter's queue begins when none runs (R316). -/
def Adapter.refill (x : Adapter) : Adapter :=
  match x.next, x.old, x.queue with
  | none, none, c :: rest => { x with next := some (c, Desc.field c.d 0x18 8, Desc.field c.d 0x20 4), queue := rest }
  | _, _, _ => x
/-- A load whose replaced version has no pinned request completes. -/
def State.releaseAdapter (s : State) (n : StallId) (a m : Nat) : State :=
  match (s.serving[n]).keep.adapters.find? fun x => x.id = a && x.model = m with
  | some x =>
    (match x.old with
     | some (c, v0) =>
       if (s.serving[n]).pinned a m v0 then s
       else (s.modSrv n fun v => v.modAdapter a m fun x => { x with old := none }.refill).finish c .ok x.ver v0
     | none => s)
  | none => s
/-- New adapter versions become current at a boundary (R316). -/
def State.publishAdapters (s : State) (n : StallId) : State :=
  (s.serving[n]).keep.adapters.foldl (fun s x =>
    match x.next with
    | some (c, w, k) =>
      let s := s.modSrv n fun v => v.modAdapter x.id x.model fun y => { y with ver := y.ver + 1, oldAddr := y.addr, addr := w, bytes := k, next := none, old := some (c, y.ver) }
      s.releaseAdapter n x.id x.model
    | none => s) s
/-- Settings that take effect at a boundary: clients (R318), trigger entries (R303). -/
def Serving.settleBoundary (v : Serving) : Serving :=
  let clients := v.keep.clients.map fun (c : Client) => match c.next with
    | some (m, b) => { c with maxSeq := m, budget := b, next := none }
    | none => c
  { v with keep := { v.keep with clients, cfg := { v.keep.cfg with trig := v.keep.cfg.next.getD v.keep.cfg.trig, next := none } } }
/-- The budgets refill (R317). -/
def State.refill (s : State) (n : StallId) : State :=
  s.modSrv n fun v => { v with left := s.reg (.stl n) 0x50, keep := { v.keep with clients := v.keep.clients.map fun (c : Client) => { c with left := c.budget } } }

/-- R518: each row against its first entry. -/
def State.rowSwitch (s : State) (live : List Nat) (r : RowId) : RowState :=
  let x : RowState := s.churn.rows[r]
  match s.firstOf (live.filter fun i => s.onRow r i) with
  | some i => x.switchTo (s.schedEntry i).stall
  | none => { x with queued := none }
def State.rowSwitches (s : State) : State :=
  let live := s.liveNow
  s.modChurn fun c => { c with rows := Vector.ofFn fun r => s.rowSwitch live r }

/-- At every 1,024th boundary the tiles' corrected error counts halve (R448); tiles that passed their self-test return (R141). -/
def Tile.boundary (halve : Bool) (t : Tile) : Tile :=
  { t with ce := if halve then t.ce / 2 else t.ce, quar := match t.quar with | .passed _ => .none | q => q }

/-- What every boundary does, a halting one too: open slots have ended, counters are taken, pending values apply, published values change. -/
def State.boundaryCommon (s : State) (num : BitVec 64) : State :=
  let done := fun n => s.drainedNow n
  let s := s.endDue s.now
  let s := (allStalls.filter fun n => s.fresh? n).foldl (fun s n => s.count (some n) 0x001 1) s
  let s := (s.snapCounters (lo32 num)).applyPending
  let s := allStalls.foldl (fun s n => s.stallBoundary done n) s
  allStalls.foldl (fun s n => (((s.publishIndexes n).publishTables n).publishAdapters n).modSrv n Serving.settleBoundary) s

/-- Every GTH_DECAY.CHURNS Churns the counters of the row caches' sketches halve (R252, log 25). -/
def State.decay (s : State) (num : BitVec 64) : State :=
  if num.toNat % max 1 ((s.reg .gth 0x010).toNat % 256) = 0 then allStalls.foldl (fun s n => s.modSrv n Serving.halveSketch) s else s

/-- A new Churn begins. -/
def State.beginChurn (s : State) (num : BitVec 64) : State :=
  let s := s.modChurn fun c => { c with running := true, num, boundaryAt := s.now, turns := [], cturn := 0, commons := none, opened := [], ended := [], late := [] }
  let s := allStalls.foldl (fun s n => s.refill n) s
  let s := (s.decay num).fabricBoundary.sendMarks
  let s := allStalls.foldl (fun s n => s.homeIdle n) s.doSkips.rowSwitches
  { s with tiles := s.tiles.map (Tile.boundary (decide (num.toNat % 1024 = 0))) }

/-- When the next boundary is due (R69, R392). -/
def State.boundaryDue (s : State) : Nat := ((s.churn.boundaryAt + s.periodUs * usBclk : Nat) + s.fabric.adjust).toNat
/-- The Churn period expires. -/
def State.boundary (s : State) (x : Sample) : State :=
  if !s.churn.running then s
  else
    let s := (s.until s.boundaryDue).modFabric fun f => { f with adjust := 0 }
    if s.churn.halting then
      let s := (s.boundaryCommon s.churn.num).modChurn fun c => { c with running := false, halting := false, boundaryAt := s.now, commons := none, opened := [], ended := [], late := [] }
      let s := { s with tiles := s.tiles.map (Tile.boundary false) }
      ((s.sample x).raise .chn 0x4).telemeter
    else ((s.boundaryCommon (s.churn.num + 1)).beginChurn (s.churn.num + 1)).powerBoundary x |>.telemeter
def execChurnBoundary (x : Sample) (s : State) : Out := evs (fun s => s.boundary x) s

/-- RUN written 1: while halted, a boundary begins the first Churn; a halt not reached yet is withdrawn (log 55). -/
def State.runSet (s : State) : State :=
  if s.churn.running then s.modChurn fun c => { c with halting := false }
  else ((s.boundaryCommon 1).beginChurn 1).telemeter
def execChnRunSet (s : State) : Out := evls State.runSet s
/-- RUN written 0: the next boundary halts (R71). -/
def execChnRunClear (s : State) : Out := evl (fun s => if s.churn.running then s.modChurn fun c => { c with halting := true } else s) s

end Sys2Proof.Machine
end

