-- ==== Sys2Proof/Machine/Issue.lean ====
section
/-! DEFINITION. The issue of one Dythe instruction on a tile, shared by every instruction command. -/
namespace Sys2Proof.Machine

/-- A fault ends the kernel; descriptors that its batch held back may start. -/
def State.faultKernel (s : State) (t : TileId) (c : Cause) (code : BitVec 16) : State := (s.kernelFault t c code).settle

/-- Issue on tile `t`, which runs a kernel. An instruction that must wait leaves everything as it stands; one that ends moves the pc on; a fault
ends the kernel (R105, R107). -/
def State.issue (s : State) (t : TileId) (f : Tile → TStep) : State :=
  match f s.tiles[t] with
  | .hold => s
  | .go tl => s.modTile t fun _ => tl.advance
  | .jump tl => s.modTile t fun _ => tl
  | .fault c code => s.faultKernel t c code
  | .part u c code => (s.useFree.modTile t fun _ => u (Config.selectionLeft s.fresh)).faultKernel t c code

/-- Is the instruction at the pc of tile `t` this one (R87)? -/
def State.fetches (s : State) (t : TileId) (op : Nat) (w : DyWord) : Bool := s.tiles[t].fetch = some (op, w)

/-- The word at the pc of tile `t`, which runs a kernel, is this instruction, one that the loader accepts (R87, R89). -/
def State.atPc (s : State) (t : TileId) (op : Nat) (w : DyWord) : Bool := dyOk op w && s.fetches t op w

/-- The command of an instruction: issued in a BCLK of its own where the word at the tile's pc is that instruction; elsewhere nothing issues (log 9). No tile holds a word
that the loader refuses (R89), and nothing issues for it either (log 23). -/
def dyRun (op : Nat) (t : TileId) (w : DyWord) (f : Tile → TStep) (s : State) : Out := .next (if s.atPc t op w then s.tick.issue t f else s.tick)

/-- As `dyRun`, for instructions that reach beyond the tile. -/
def dyRunS (op : Nat) (t : TileId) (w : DyWord) (f : Tile → State → State) (s : State) : Out := .next (if s.atPc t op w then f s.tick.tiles[t] s.tick else s.tick)

end Sys2Proof.Machine
end

