-- ==== Sys2Proof/Machine/Control.lean ====
section
/-! DEFINITION. Control instructions and hardware loops (R91, R92, Table 4.5). -/
namespace Sys2Proof.Machine

/-- A conditional branch: to the current address plus IMM when the comparison of sA with sB holds. -/
def branchOp (f : BitVec 64 → BitVec 64 → Bool) (w : DyWord) (t : Tile) : TStep :=
  if t.busyS [w.a, w.b] then .hold
  else if f (t.sreg w.a) (t.sreg w.b) then .jump { t with pc := t.target w } else .go t

/-- call: push the next address, then branch. -/
def callOp (w : DyWord) (t : Tile) : TStep := .jump { t with ret := (t.pc + 1) :: t.ret, pc := t.target w }

/-- ret: pop the return stack and branch there; the loader's rules leave it never empty (R93). -/
def retOp (t : Tile) : TStep :=
  match t.ret with
  | [] => .hold
  | a :: rest => .jump { t with ret := rest, pc := a }

/-- loop: the count is read once; 0 skips the body (R92). -/
def loopOp (w : DyWord) (t : Tile) : TStep :=
  if t.busyS [w.a] then .hold
  else
    let n := (t.sreg w.a).toNat % 2 ^ 32
    let last := t.target w
    let k : Fin 4 := Fin.ofNat 4 w.d.toNat
    if n = 0 then .jump (t.advanceFrom last)
    else .go { t with lc := t.lc.set k 0, loops := { depth := k, first := t.pc + 1, last, left := n } :: t.loops }

/-- lbz and lbnz: leave the innermost loop at once when the test holds, and go on after its body. -/
def leaveOp (f : BitVec 64 → Bool) (w : DyWord) (t : Tile) : TStep :=
  if t.busyS [w.a] then .hold
  else if f (t.sreg w.a) then
    (match t.loops with
     | [] => .go t
     | l :: rest => .jump ({ t with loops := rest }.advanceFrom l.last))
  else .go t

def execDyBeq (t : TileId) (w : DyWord) (s : State) : Out := dyRun 0x30 t w (branchOp (fun a b => a == b) w) s
def execDyBne (t : TileId) (w : DyWord) (s : State) : Out := dyRun 0x31 t w (branchOp (fun a b => a != b) w) s
def execDyBlt (t : TileId) (w : DyWord) (s : State) : Out := dyRun 0x32 t w (branchOp (fun a b => a.slt b) w) s
def execDyBge (t : TileId) (w : DyWord) (s : State) : Out := dyRun 0x33 t w (branchOp (fun a b => !a.slt b) w) s
def execDyBltu (t : TileId) (w : DyWord) (s : State) : Out := dyRun 0x34 t w (branchOp (fun a b => a.ult b) w) s
def execDyBgeu (t : TileId) (w : DyWord) (s : State) : Out := dyRun 0x35 t w (branchOp (fun a b => !a.ult b) w) s
def execDyJmp (t : TileId) (w : DyWord) (s : State) : Out := dyRun 0x36 t w (fun tl => .jump { tl with pc := tl.target w }) s
def execDyCall (t : TileId) (w : DyWord) (s : State) : Out := dyRun 0x37 t w (callOp w) s
def execDyRet (t : TileId) (w : DyWord) (s : State) : Out := dyRun 0x38 t w retOp s
def execDyLoop (t : TileId) (w : DyWord) (s : State) : Out := dyRun 0x39 t w (loopOp w) s
def execDyLbz (t : TileId) (w : DyWord) (s : State) : Out := dyRun 0x3A t w (leaveOp (fun a => a == 0) w) s
def execDyLbnz (t : TileId) (w : DyWord) (s : State) : Out := dyRun 0x3B t w (leaveOp (fun a => a != 0) w) s

/-- The stationary loader, the array and the MV path have completed every operation of the kernel (R165). -/
def Tile.unitsIdle (t : Tile) : Bool := t.mstl.isNone && t.mat.isEmpty && t.mv.isEmpty

/-- end takes effect once the tile's units are idle (R165) and its result s1 stands (R105); DMAs outstanding do not hold it, they hold the tile's next item (log 15). -/
def execDyEnd (t : TileId) (w : DyWord) (s : State) : Out :=
  dyRunS 0x3C t w (fun tl s => if tl.unitsIdle && !tl.busyS [1] then (s.kernelEnd t).settle else s) s
/-- trap: the code is IMM[15:0]. DESIGN CHOICE: the other bits of IMM, here and in dmawait, may be anything and are ignored (Tables 4.5 and 4.9 name IMM[15:0] only; log 90). -/
def execDyTrap (t : TileId) (w : DyWord) (s : State) : Out := dyRun 0x3D t w (fun _ => .fault .trap (w.low.setWidth 16)) s
def execDyNop (t : TileId) (w : DyWord) (s : State) : Out := dyRun 0x3E t w .go s

end Sys2Proof.Machine
end

