-- ==== Sys2Proof/Machine/VectorOps.lean ====
section
/-! DEFINITION. The vector instructions of Table 4.6, lane by lane (R94, R169–R171), and the predicate instructions of Table 4.7 (R95). -/
namespace Sys2Proof.Machine

/-- The value of a lane at a floating type. -/
def laneF (ty : BitVec 4) (x : Nat) : FVal := fdecode (tyFmt ty) x

/-- One lane of an arithmetic operation: exact on integers, then narrowed; exact on floats, then rounded once. -/
def arithLane (ty : BitVec 4) (sat : Bool) (fi : Int → Int → Int) (ff : FVal → FVal → FVal) (x y : Nat) : Nat :=
  if tyInt ty then intLane ty sat (fi (laneInt ty x) (laneInt ty y)) else fencode (tyFmt ty) (ff (laneF ty x) (laneF ty y))

/-- Is .sat given? -/
def satBit (w : DyWord) : Bool := (DySub w).getLsbD 0

/-- A lane-wise operation of vA and vB. -/
def vecOp2 (f : Nat → Nat → Nat) (w : DyWord) (t : Tile) : TStep :=
  if t.busyV [w.d.toNat, w.a.toNat, w.b.toNat] then .hold
  else
    let bits := laneBits w.t
    .go (t.setV w.d (t.mapLanes w fun i => f (lane (t.vreg w.a) bits i) (lane (t.vreg w.b) bits i)))
/-- A lane-wise operation of vA. -/
def vecOp1 (f : Nat → Nat) (w : DyWord) (t : Tile) : TStep :=
  if t.busyV [w.d.toNat, w.a.toNat] then .hold
  else .go (t.setV w.d (t.mapLanes w fun i => f (lane (t.vreg w.a) (laneBits w.t) i)))

/-- vA × vB + vC with one rounding. -/
def vfmaOp (w : DyWord) (t : Tile) : TStep :=
  if t.busyV [w.d.toNat, w.a.toNat, w.b.toNat, (DyC w).toNat] then .hold
  else
    let bits := laneBits w.t
    .go (t.setV w.d (t.mapLanes w fun i =>
      let x := lane (t.vreg w.a) bits i
      let y := lane (t.vreg w.b) bits i
      let z := lane (t.vreg (DyC w)) bits i
      if tyInt w.t then intLane w.t (satBit w) (laneInt w.t x * laneInt w.t y + laneInt w.t z)
      else fencode (tyFmt w.t) (fadd (fmul (laneF w.t x) (laneF w.t y)) (laneF w.t z))))

/-- The lesser (or greater) of two float codes: −0 below +0, a NaN gives the other, two NaNs the canonical NaN (R170). -/
def fminmax (fm : FFmt) (least : Bool) (x y : Nat) : Nat :=
  let a := fdecode fm x
  let b := fdecode fm y
  if a.isNan && b.isNan then fnan fm
  else if a.isNan then y
  else if b.isNan then x
  else
    let xLess := fltLt a b || (fltEq a b && a.neg && !b.neg)
    if xLess = least then x else y

def minmaxLane (ty : BitVec 4) (least : Bool) (x y : Nat) : Nat :=
  if tyInt ty then (if decide (laneInt ty x < laneInt ty y) = least then x else y) else fminmax (tyFmt ty) least x y

/-- vabs and vneg of floats change only the sign bit, NaNs included (R170). -/
def absLane (ty : BitVec 4) (sat : Bool) (x : Nat) : Nat :=
  if tyInt ty then intLane ty sat ((laneInt ty x).natAbs) else x % 2 ^ (laneBits ty - 1)
def negLane (ty : BitVec 4) (sat : Bool) (x : Nat) : Nat :=
  if tyInt ty then intLane ty sat (-laneInt ty x) else x ^^^ 2 ^ (laneBits ty - 1)

/-- The shift amount: the low bits of the lane of vB (Table 4.6). -/
def laneShift (ty : BitVec 4) (y : Nat) : Nat := y % laneBits ty
def sraLane (ty : BitVec 4) (x y : Nat) : Nat :=
  let b := laneBits ty
  let v : Int := if 2 ^ (b - 1) ≤ x then (x : Int) - 2 ^ b else x
  ((v >>> laneShift ty y) % 2 ^ b).toNat

/-! ### vcvt (R171, Table 7.3) -/

def roundSat (fm : FFmt) (md : RMode) (neg : Bool) (num den : Nat) : Nat :=
  match roundMag fm md num den with
  | some c => fsign fm neg + c
  | none => fsign fm neg + fmaxCode fm

/-- A float converted to a floating type: beyond the largest finite value it stops there; an infinity stays one where the destination has infinities. -/
def cvtFF (fm : FFmt) (md : RMode) : FVal → Nat
  | .nan => fnan fm
  | .inf n => if fm.ieee then finf fm n else fsign fm n + fmaxCode fm
  | .fin n m e => let (a, b) := scaleFrac m 1 e; roundSat fm md n a b

/-- A float converted to an integer type, saturating; NaN gives 0. -/
def cvtFI (ty : BitVec 4) (md : RMode) : FVal → Nat
  | .nan => 0
  | .inf n => intLane ty true (if n then tyMin ty else tyMax ty)
  | v => intLane ty true (froundInt md v)

/-- One element converted from type `src` to type `dst`. -/
def cvtLane (src dst : BitVec 4) (md : RMode) (x : Nat) : Nat :=
  if tyInt src then
    (if tyInt dst then intLane dst true (laneInt src x)
     else let v := laneInt src x; roundSat (tyFmt dst) md (decide (v < 0)) v.natAbs 1)
  else if tyInt dst then cvtFI dst md (laneF src x) else cvtFF (tyFmt dst) md (laneF src x)

def vcvtOp (w : DyWord) (t : Tile) : TStep :=
  if t.busyV [w.d.toNat, w.a.toNat] then .hold
  else
    let src : BitVec 4 := (DySub w).extractLsb' 12 4
    let md : RMode := if (DySub w).getLsbD 0 then .rz else .rn
    let q := (DySub w).toNat / 256 % 8
    let ns := lanesOf src
    let nd := lanesOf w.t
    let n := min ns nd
    let old := t.vreg w.d
    .go (t.setV w.d (t.mapLanes w fun i =>
      if ns ≤ nd then
        (if q * n ≤ i ∧ i < q * n + n then cvtLane src w.t md (lane (t.vreg w.a) (laneBits src) (i - q * n)) else lane old (laneBits w.t) i)
      else cvtLane src w.t md (lane (t.vreg w.a) (laneBits src) (q * n + i))))

/-! ### Moves, loads and stores -/

def vbcastOp (w : DyWord) (t : Tile) : TStep :=
  if t.busyS [w.a] || t.busyV [w.d.toNat] then .hold else .go (t.setV w.d (t.mapLanes w fun _ => (t.sreg w.a).toNat % 2 ^ laneBits w.t))
def vextOp (w : DyWord) (t : Tile) : TStep :=
  if t.busyS [w.d] || t.busyV [w.a.toNat] then .hold else .go (t.setS w.d (BitVec.ofNat 64 (lane (t.vreg w.a) (laneBits w.t) w.low.toNat)))
def vinsOp (w : DyWord) (t : Tile) : TStep :=
  if t.busyS [w.a] || t.busyV [w.d.toNat] then .hold
  else
    let bits := laneBits w.t
    .go (t.setV w.d (BitVec.ofNat 2048 (packLanes bits ((List.range (lanesOf w.t)).map fun i =>
      if i = w.low.toNat then (t.sreg w.a).toNat else lane (t.vreg w.d) bits i))))

/-- Is byte `b` of a register's 256 in an active lane? -/
def Tile.activeByte (t : Tile) (w : DyWord) (b : Nat) : Bool :=
  let l := lanesOf w.t
  t.active w w.t (if l = 512 then 2 * b else b * l / 256)
/-- The bytes of active lanes. -/
def Tile.activeBytes (t : Tile) (w : DyWord) : List Nat := (List.range 256).filter fun b => t.activeByte w b

/-- vld: 256 bytes at a multiple of 64; inactive lanes are not read and raise no fault (R88). -/
def vldOp (w : DyWord) (t : Tile) : TStep :=
  let a := t.addrA w
  if t.busyS [w.a] || t.busyV [w.d.toNat] then .hold
  else if a % 64 ≠ 0 then .fault .align 0
  else if (t.activeBytes w).any fun b => !tsOk (a + b) 1 then .fault .tsRange 0
  else if (t.activeBytes w).any fun b => t.marked (a + b) 1 then .fault .poison 0
  else .go (t.setV w.d (BitVec.ofNat 2048 (packLanes 8 ((List.range 256).map fun b =>
    if t.activeByte w b then (t.byte (a + b)).toNat else lane (t.vreg w.d) 8 b))))

/-- Write the named bytes, then clear the marks of the 64-byte blocks written whole (R440). -/
def Tile.writeBytes (t : Tile) (a : Nat) (bs : List Nat) (f : Nat → Byte) : Tile :=
  let st := bs.foldl (fun m b => mapSet 0 m (a + b) (f b)) t.store
  { t with store := st, marks := t.marks.filter fun k => !((List.range 64).all fun j => decide (a ≤ k * 64 + j) && bs.contains (k * 64 + j - a)) }

def vstOp (w : DyWord) (t : Tile) : TStep :=
  let a := (t.sreg w.b + dyImm w).toNat
  if t.busyS [w.b] || t.busyV [w.a.toNat] then .hold
  else if a % 64 ≠ 0 then .fault .align 0
  else if (t.activeBytes w).any fun b => !tsOk (a + b) 1 then .fault .tsRange 0
  else .go (t.writeBytes a (t.activeBytes w) fun b => BitVec.ofNat 8 (lane (t.vreg w.a) 8 b))

/-- First byte and byte count of element `k` of an array at `base` (Table 4.6, R167). -/
def elemAddr (ty : BitVec 4) (base k : Nat) : Nat × Nat :=
  if lanesOf ty = 512 then (base + k / 2, 1) else (base + k * (laneBits ty / 8), laneBits ty / 8)
def Tile.elem (t : Tile) (ty : BitVec 4) (base k : Nat) : Nat :=
  let (a, n) := elemAddr ty base k
  let x := ofBytesLE (t.read a n)
  if lanesOf ty = 512 then x / 16 ^ (k % 2) % 16 else x

def vgatherOp (w : DyWord) (t : Tile) : TStep :=
  let base := (t.sreg w.a).toNat
  let bits := laneBits w.t
  let idx := fun i => lane (t.vreg w.b) bits i
  let acts := (List.range (lanesOf w.t)).filter fun i => t.active w w.t i
  if t.busyS [w.a] || t.busyV [w.d.toNat, w.b.toNat] then .hold
  else if acts.any (fun i => let (a, n) := elemAddr w.t base (idx i); !tsOk a n) then .fault .tsRange 0
  else if acts.any (fun i => let (a, n) := elemAddr w.t base (idx i); t.marked a n) then .fault .poison 0
  else .go (t.setV w.d (t.mapLanes w fun i => t.elem w.t base (idx i)))

/-- Write element `k` of an array. -/
def Tile.setElem (t : Tile) (ty : BitVec 4) (base k x : Nat) : Tile :=
  let (a, n) := elemAddr ty base k
  if lanesOf ty = 512 then
    let old := (t.byte a).toNat
    t.write a [BitVec.ofNat 8 (if k % 2 = 0 then old / 16 * 16 + x else old % 16 + 16 * x)]
  else t.write a (toBytesLE n x)

def vscatterOp (w : DyWord) (t : Tile) : TStep :=
  let base := (t.sreg w.b).toNat
  let bits := laneBits w.t
  let idx := fun i => lane (t.vreg (DyC w)) bits i
  let acts := (List.range (lanesOf w.t)).filter fun i => t.active w w.t i
  if t.busyS [w.b] || t.busyV [w.a.toNat, (DyC w).toNat] then .hold
  else if acts.any (fun i => let (a, n) := elemAddr w.t base (idx i); !tsOk a n) then .fault .tsRange 0
  else .go (acts.foldl (fun tl i => tl.setElem w.t base (idx i) (lane (t.vreg w.a) bits i)) t)

/-! ### Reductions, comparisons and permutations -/

/-- The fixed pairwise tree: element 2j with element 2j + 1 first; absent elements drop out. `fuel` bounds the levels. -/
def pairTree {α : Type} (f : α → α → α) : Nat → List (Option α) → Option α
  | 0, l => l.head?.join
  | k + 1, l =>
    let rec pairs : List (Option α) → List (Option α)
      | some x :: some y :: r => some (f x y) :: pairs r
      | some x :: none :: r => some x :: pairs r
      | none :: some y :: r => some y :: pairs r
      | none :: none :: r => none :: pairs r
      | l => l
    pairTree f k (pairs l)

/-- vred: 0 sum, 1 maximum, 2 minimum of active lanes; the identity when none is active (Table 4.6). A NaN gives the canonical NaN (R169). DESIGN CHOICE: a BF16 sum rounds
to BF16 at each node of the tree, and a BF16 result stands in sD as its 16 bits, zero-extended; the spec gives only the F32 form (log 91). -/
def vredOp (w : DyWord) (t : Tile) : TStep :=
  let ty := w.t
  let op := (DySub w).toNat % 4
  let ls : List (Option Nat) := (List.range (lanesOf ty)).map fun i => if t.active w ty i then some (lane (t.vreg w.a) (laneBits ty) i) else none
  let r : BitVec 64 :=
    if tyInt ty then
      let f : Int → Int → Int := if op = 0 then (· + ·) else if op = 1 then max else min
      let v := pairTree f 8 (ls.map fun o => o.map (laneInt ty))
      BitVec.ofInt 64 (v.getD (if op = 0 then 0 else if op = 1 then tyMin ty else tyMax ty))
    else
      let fm := tyFmt ty
      let f : Nat → Nat → Nat := if op = 0 then (fun x y => fencode fm (fadd (fdecode fm x) (fdecode fm y))) else fminmax fm (op = 2)
      let v := (pairTree f 8 ls).getD (if op = 0 then 0 else finf fm (op = 1))
      BitVec.ofNat 64 (if fdecode fm v = .nan then fnan fm else v)
  if t.busyS [w.d] || t.busyV [w.a.toNat] then .hold else .go (t.setS w.d r)

/-- A comparison of vcmp: NaN compares false except ne. -/
def cmpLane (ty : BitVec 4) (op x y : Nat) : Bool :=
  let lt := if tyInt ty then decide (laneInt ty x < laneInt ty y) else fltLt (laneF ty x) (laneF ty y)
  let gt := if tyInt ty then decide (laneInt ty y < laneInt ty x) else fltLt (laneF ty y) (laneF ty x)
  let eq := if tyInt ty then decide (laneInt ty x = laneInt ty y) else fltEq (laneF ty x) (laneF ty y)
  match op with
  | 0 => eq | 1 => !eq | 2 => lt | 3 => lt || eq | 4 => gt | _ => gt || eq

/-- A 256-bit predicate from a function of the bit. -/
def packPred (f : Nat → Bool) : BitVec 256 := BitVec.ofNat 256 (packLanes 1 ((List.range 256).map fun i => if f i then 1 else 0))

def vcmpOp (w : DyWord) (t : Tile) : TStep :=
  let bits := laneBits w.t
  if t.busyV [w.a.toNat, w.b.toNat] then .hold
  else .go (t.setPred w.d (packPred fun i =>
    if lanesOf w.t ≤ i then false
    else if t.active w w.t i then cmpLane w.t ((DySub w).toNat % 8) (lane (t.vreg w.a) bits i) (lane (t.vreg w.b) bits i)
    else (t.pred w.d).getLsbD i))

/-- vsel: the predicate chooses between vA and vB in every lane; PE is 1 (R88). -/
def vselOp (w : DyWord) (t : Tile) : TStep :=
  let bits := laneBits w.t
  if t.busyV [w.d.toNat, w.a.toNat, w.b.toNat] then .hold
  else .go (t.setV w.d (BitVec.ofNat 2048 (packLanes bits ((List.range (lanesOf w.t)).map fun i =>
    if t.active w w.t i then lane (t.vreg w.a) bits i else lane (t.vreg w.b) bits i))))

def vpermOp (w : DyWord) (t : Tile) : TStep :=
  let bits := laneBits w.t
  if t.busyV [w.d.toNat, w.a.toNat, w.b.toNat] then .hold
  else .go (t.setV w.d (t.mapLanes w fun i => lane (t.vreg w.a) bits (lane (t.vreg w.b) bits i % lanesOf w.t)))

def vslideOp (w : DyWord) (t : Tile) : TStep :=
  let bits := laneBits w.t
  if t.busyV [w.d.toNat, w.a.toNat] then .hold
  else .go (t.setV w.d (t.mapLanes w fun i =>
    let j : Int := i + w.low.toInt
    if 0 ≤ j ∧ j < lanesOf w.t then lane (t.vreg w.a) bits j.toNat else 0))

/-! ### Approximations: error within 2 units in the last place (Table 4.6) -/

/-- Move a finite positive code by up to 2 units in the last place, staying among the finite codes of its sign. -/
def ulpMove (c : Nat) (d : Fin 5) : Nat :=
  let m := c % 2 ^ 31
  let s := c - m
  s + min (fmaxCode fmtF32) (m + d.val - 2)

/-- ln 2 in units of 2^-80. -/
def ln2Fixed : Nat := 837963523372001241319907

/-- e^r in units of 2^-80 for r below 1 in the same units: 24 terms of the series, so that the error lies far below one unit of the last place of F32. -/
def expSmall (r : Nat) : Nat := (List.range 24).foldr (fun i acc => 2 ^ 80 + r * acc / 2 ^ 80 / (i + 1)) (2 ^ 80)

/-- e^x of a finite value, rounded to F32: x = k ln 2 + r gives 2^k e^r. A value of 128 or more overflows; one of −128 or less rounds to zero. -/
def expRound (n : Bool) (m : Nat) (e : Int) : Nat :=
  let x : Int := fscaled n m (max e (-80)) (-80) / (if e < -80 then 2 ^ (-80 - e).toNat else 1)
  if 2 ^ 87 ≤ x then finf fmtF32 false
  else if x ≤ -2 ^ 87 then 0
  else
    let k := x / (ln2Fixed : Int)
    let v := expSmall (x % (ln2Fixed : Int)).toNat
    if 0 ≤ k then fround fmtF32 false (v * 2 ^ k.toNat) (2 ^ 80) else fround fmtF32 false v (2 ^ (80 + (-k).toNat))

/-- e^x: a NaN gives the canonical NaN, −∞ gives +0, +∞ gives +∞; a finite x gives the rounded result moved by a free offset of at most 2 units in the last place
(log 12). -/
def expLane (x : Nat) : Nat :=
  match fdecode fmtF32 x with
  | .nan => fnan fmtF32
  | .inf n => if n then 0 else finf fmtF32 false
  | .fin n m e =>
    let r := expRound n m e
    if r = finf fmtF32 false then r else ulpMove r (Config.ulpOff 2 (BitVec.ofNat 32 x))

/-- 1/x: the rounded quotient moved by a free offset of at most 2 units in the last place; 1/±0 is ±∞, 1/±∞ is ±0 (log 12). -/
def rcpLane (x : Nat) : Nat :=
  match fdecode fmtF32 x with
  | .nan => fnan fmtF32
  | .inf n => fsign fmtF32 n
  | .fin n m e =>
    if m = 0 then finf fmtF32 n
    else
      let r := fdivRound fmtF32 (.fin n 1 0) (.fin false m e)
      if fdecode fmtF32 r = .inf n then r else ulpMove r (Config.ulpOff 0 (BitVec.ofNat 32 x))

/-- The integer square root of num/den scaled: floor of sqrt(num × 4^k / den). -/
def sqrtScaled (num den k : Nat) : Nat := Nat.sqrt (num * 4 ^ k / den)

/-- 1/√x of a finite positive value, near enough for the free offset to cover the rounding (log 12). -/
def rsqrtLane (x : Nat) : Nat :=
  match fdecode fmtF32 x with
  | .nan => fnan fmtF32
  | .inf n => if n then fnan fmtF32 else 0
  | .fin n m e =>
    if m = 0 then finf fmtF32 n
    else if n then fnan fmtF32
    else
      let (a, b) := scaleFrac m 1 e
      ulpMove (fround fmtF32 false (sqrtScaled b a 120) (2 ^ 120)) (Config.ulpOff 1 (BitVec.ofNat 32 x))

/-- vbin: bit i of sD is 1 when lane i is greater than zero; NaN, −0 and +0 give 0 (R170). -/
def vbinOp (w : DyWord) (t : Tile) : TStep :=
  if t.busyS [w.d] || t.busyV [w.a.toNat] then .hold
  else .go (t.setS w.d (BitVec.ofNat 64 (packLanes 1 ((List.range 64).map fun i =>
    if t.active w w.t i && fltLt (.fin false 0 0) (f32 (BitVec.ofNat 32 (lane (t.vreg w.a) 32 i))) then 1 else 0))))

def execDyVadd (t : TileId) (w : DyWord) (s : State) : Out := dyRun 0x40 t w (vecOp2 (arithLane w.t (satBit w) (· + ·) fadd) w) s
def execDyVsub (t : TileId) (w : DyWord) (s : State) : Out := dyRun 0x41 t w (vecOp2 (arithLane w.t (satBit w) (· - ·) fun x y => fadd x (fneg y)) w) s
def execDyVmul (t : TileId) (w : DyWord) (s : State) : Out := dyRun 0x42 t w (vecOp2 (arithLane w.t (satBit w) (· * ·) fmul) w) s
def execDyVfma (t : TileId) (w : DyWord) (s : State) : Out := dyRun 0x43 t w (vfmaOp w) s
def execDyVmin (t : TileId) (w : DyWord) (s : State) : Out := dyRun 0x44 t w (vecOp2 (minmaxLane w.t true) w) s
def execDyVmax (t : TileId) (w : DyWord) (s : State) : Out := dyRun 0x45 t w (vecOp2 (minmaxLane w.t false) w) s
def execDyVabs (t : TileId) (w : DyWord) (s : State) : Out := dyRun 0x46 t w (vecOp1 (absLane w.t (satBit w)) w) s
def execDyVneg (t : TileId) (w : DyWord) (s : State) : Out := dyRun 0x47 t w (vecOp1 (negLane w.t (satBit w)) w) s
def execDyVand (t : TileId) (w : DyWord) (s : State) : Out := dyRun 0x48 t w (vecOp2 (fun x y => x &&& y) w) s
def execDyVor (t : TileId) (w : DyWord) (s : State) : Out := dyRun 0x49 t w (vecOp2 (fun x y => x ||| y) w) s
def execDyVxor (t : TileId) (w : DyWord) (s : State) : Out := dyRun 0x4A t w (vecOp2 (fun x y => x ^^^ y) w) s
def execDyVshl (t : TileId) (w : DyWord) (s : State) : Out := dyRun 0x4B t w (vecOp2 (fun x y => x * 2 ^ laneShift w.t y) w) s
def execDyVshr (t : TileId) (w : DyWord) (s : State) : Out := dyRun 0x4C t w (vecOp2 (fun x y => x / 2 ^ laneShift w.t y) w) s
def execDyVsra (t : TileId) (w : DyWord) (s : State) : Out := dyRun 0x4D t w (vecOp2 (sraLane w.t) w) s
def execDyVcvt (t : TileId) (w : DyWord) (s : State) : Out := dyRun 0x4E t w (vcvtOp w) s
def execDyVbcast (t : TileId) (w : DyWord) (s : State) : Out := dyRun 0x4F t w (vbcastOp w) s
def execDyVext (t : TileId) (w : DyWord) (s : State) : Out := dyRun 0x50 t w (vextOp w) s
def execDyVins (t : TileId) (w : DyWord) (s : State) : Out := dyRun 0x51 t w (vinsOp w) s
def execDyVld (t : TileId) (w : DyWord) (s : State) : Out := dyRun 0x52 t w (vldOp w) s
def execDyVst (t : TileId) (w : DyWord) (s : State) : Out := dyRun 0x53 t w (vstOp w) s
def execDyVgather (t : TileId) (w : DyWord) (s : State) : Out := dyRun 0x54 t w (vgatherOp w) s
def execDyVscatter (t : TileId) (w : DyWord) (s : State) : Out := dyRun 0x55 t w (vscatterOp w) s
def execDyVred (t : TileId) (w : DyWord) (s : State) : Out := dyRun 0x56 t w (vredOp w) s
def execDyVcmp (t : TileId) (w : DyWord) (s : State) : Out := dyRun 0x57 t w (vcmpOp w) s
def execDyVsel (t : TileId) (w : DyWord) (s : State) : Out := dyRun 0x58 t w (vselOp w) s
def execDyVperm (t : TileId) (w : DyWord) (s : State) : Out := dyRun 0x59 t w (vpermOp w) s
def execDyVslide (t : TileId) (w : DyWord) (s : State) : Out := dyRun 0x5A t w (vslideOp w) s
def execDyVexp (t : TileId) (w : DyWord) (s : State) : Out := dyRun 0x5B t w (vecOp1 expLane w) s
def execDyVrcp (t : TileId) (w : DyWord) (s : State) : Out := dyRun 0x5C t w (vecOp1 rcpLane w) s
def execDyVrsqrt (t : TileId) (w : DyWord) (s : State) : Out := dyRun 0x5D t w (vecOp1 rsqrtLane w) s
def execDyVmov (t : TileId) (w : DyWord) (s : State) : Out := dyRun 0x5E t w (vecOp1 id w) s
def execDyVbin (t : TileId) (w : DyWord) (s : State) : Out := dyRun 0x5F t w (vbinOp w) s

/-! ### Predicates (R95): all 256 bits -/

def predOp2 (f : BitVec 256 → BitVec 256 → BitVec 256) (w : DyWord) (t : Tile) : TStep := .go (t.setPred w.d (f (t.pred w.a) (t.pred w.b)))

def execDyVpand (t : TileId) (w : DyWord) (s : State) : Out := dyRun 0x80 t w (predOp2 (· &&& ·) w) s
def execDyVpor (t : TileId) (w : DyWord) (s : State) : Out := dyRun 0x81 t w (predOp2 (· ||| ·) w) s
def execDyVpxor (t : TileId) (w : DyWord) (s : State) : Out := dyRun 0x82 t w (predOp2 (· ^^^ ·) w) s
def execDyVpnot (t : TileId) (w : DyWord) (s : State) : Out := dyRun 0x83 t w (fun tl => .go (tl.setPred w.d (~~~(tl.pred w.a)))) s
/-- vpfirst: the first min(sA, 256) bits are set. -/
def vpfirstOp (w : DyWord) (t : Tile) : TStep :=
  if t.busyS [w.a] then .hold else .go (t.setPred w.d (packPred fun i => decide (i < min (t.sreg w.a).toNat 256)))
/-- vpcnt: the set bits among bits 0 to min(lanes of T, 256) − 1. -/
def vpcntOp (w : DyWord) (t : Tile) : TStep :=
  if t.busyS [w.d] then .hold
  else .go (t.setS w.d (BitVec.ofNat 64 ((List.range (min (lanesOf w.t) 256)).countP fun i => (t.pred w.a).getLsbD i)))
def execDyVpfirst (t : TileId) (w : DyWord) (s : State) : Out := dyRun 0x84 t w (vpfirstOp w) s
def execDyVpcnt (t : TileId) (w : DyWord) (s : State) : Out := dyRun 0x85 t w (vpcntOp w) s

end Sys2Proof.Machine
end

