-- ==== Sys2Proof/Machine/Matrix.lean ====
section
/-! DEFINITION. The matrix array, its stationary banks, macst and the MV path (R96, R97, R144–R185). Operations take their operands at issue and their effect
at their *_DONE command (log 16). -/
namespace Sys2Proof.Machine

/-- The escape code of a type (Table 7.2). -/
def escapeCode (ty : BitVec 4) : Option Nat :=
  match ty.toNat with
  | 0 | 9 | 10 => some 0x80
  | 11 | 12 => some 0x8
  | _ => none

/-- The value that the array and the MV path take from a code: an escape code counts as zero (R168). -/
def peValue (ty : BitVec 4) (c : Nat) : FVal :=
  if escapeCode ty = some c then .fin false 0 0
  else if tyInt ty then let v := laneInt ty c; .fin (decide (v < 0)) v.natAbs 0
  else fdecode (tyFmt ty) c

/-- Is a type a 4-bit one, or BF16? -/
def ty4 (ty : BitVec 4) : Bool := ty.toNat = 11 || ty.toNat = 12
def tyWide (ty : BitVec 4) : Bool := ty.toNat = 7

/-- Table 6.1: does a stream type pair with a stationary type? -/
def pairs (st str : BitVec 4) : Bool :=
  match st.toNat with
  | 9 | 10 => str.toNat = 9 || str.toNat = 10
  | 0 => str.toNat = 0 || str.toNat = 1
  | _ => st = str

def byteAtNat (b : List Byte) (i : Nat) : Nat := (b.getD i 0).toNat

/-- The codes W[k][j] of a stationary operand at PE(k, j) (Table 6.2): one, or two for 4-bit types. -/
def statCodes (w : Stationary) (k j : Nat) : List Nat :=
  if tyWide w.t then [byteAtNat w.data (k * 256 + 2 * j) + 256 * byteAtNat w.data (k * 256 + 2 * j + 1)]
  else
    let b := byteAtNat w.data (k * 128 + j)
    if ty4 w.t then [b % 16, b / 16] else [b]

/-- The codes A[r][k] that a skewed block brings to PE row k (R150). -/
def streamCodes (ty : BitVec 4) (lines : List Byte) (r k : Nat) : List Nat :=
  if tyWide ty then
    let a := (2 * r + k) * 256 + 2 * k
    [byteAtNat lines a + 256 * byteAtNat lines (a + 1)]
  else
    let b := byteAtNat lines ((r + k) * 128 + k)
    if ty4 ty then [b % 16, b / 16] else [b]

/-- The exact term of PE(k, j): one product, or the exact sum of two (R145). -/
def peTerm (ts tw : BitVec 4) : List Nat → List Nat → FVal
  | a :: as, b :: bs => (List.zip as bs).foldl (fun v p => fadd v (fmul (peValue ts p.1) (peValue tw p.2))) (fmul (peValue ts a) (peValue tw b))
  | _, _ => .fin false 0 0

/-- The column sum of row r, column j: each PE's term in ascending k, each addition rounded to binary32 (R145). -/
def columnSum (w : Stationary) (ty : BitVec 4) (lines : List Byte) (r j : Nat) : BitVec 32 :=
  (List.range 128).foldl (fun acc k => toF32 (fadd (f32 acc) (peTerm ty w.t (streamCodes ty lines r k) (statCodes w k j)))) 0

/-- An accumulator after an mmul (R144): row r, column j lies at r × 128 + j. -/
def accAfter (acc : AMap (BitVec 32)) (w : Stationary) (ty : BitVec 4) (rows : Nat) (lines : List Byte) (z : Bool) : AMap (BitVec 32) :=
  (List.range (rows * 128)).foldl (fun m i => mapSet 0 m i (f32Add (mapGet 0 m i) (columnSum w ty lines (i / 128) (i % 128)))) (if z then [] else acc)

/-- Lines of a skewed block of M rows, and bytes a line (R150). -/
def skewLines (ty : BitVec 4) (m : Nat) : Nat := if tyWide ty then 2 * m + 126 else m + 127
def lineBytes (ty : BitVec 4) : Nat := if tyWide ty then 256 else 128
def statBytes (ty : BitVec 4) : Nat := if tyWide ty then 32768 else 16384

/-- mstl: checked at issue; it waits for an earlier load (R147, R148). -/
def mstlOp (w : DyWord) (t : Tile) : TStep :=
  let a := (t.sreg w.a).toNat
  if t.busyS [w.a] || t.mstl.isSome then .hold
  else if a % 256 ≠ 0 then .fault .align 0
  else if !tsOk a (statBytes w.t) then .fault .tsRange 0
  else if t.marked a (statBytes w.t) then .fault .poison 0
  else .go { t with mstl := some ⟨w.t, t.read a (statBytes w.t)⟩ }

/-- mswap: after every mstl before it, st0 and st1 change places (R149). -/
def mswapOp (t : Tile) : TStep :=
  if t.mstl.isSome then .hold else .go { t with st0 := t.st1, st1 := t.st0, swapped := true }

def MatOp.acc : MatOp → Fin 2
  | .mmul a .. => a
  | .macst a .. => a

/-- The mmuls whose first lines enter the grid: none passes an earlier one, and none whose accumulator an earlier macst still reads (R153, R156); `held` are those
accumulators. -/
def enterOps : List (Fin 2) → List MatOp → List MatOp
  | _, [] => []
  | held, .mmul k m ty w l z waits :: rest =>
    if waits && held.contains k then MatOp.mmul k m ty w l z waits :: rest else MatOp.mmul k m ty w l z false :: enterOps held rest
  | held, .macst k ty a b c :: rest => MatOp.macst k ty a b c :: enterOps (k :: held) rest

/-- What may enter the grid enters; with the array at rest, its ramp begins instead (R159). -/
def Tile.enter (t : Tile) : Tile :=
  let ops := enterOps [] t.mat
  if t.activity = .up then { t with mat := ops } else if ops = t.mat then t else { t with activity := .ramping }

def mmulOp (w : DyWord) (t : Tile) : TStep :=
  let a := (t.sreg w.a).toNat
  let m := (t.sreg w.b).toNat
  let n := skewLines w.t m * lineBytes w.t
  if t.busyS [w.a, w.b] then .hold
  else if m = 0 ∨ 128 < m then .fault .operand 0
  else match t.swapped, t.st0 with
    | true, some st =>
      if !pairs st.t w.t then .fault .operand 0
      else if a % 256 ≠ 0 then .fault .align 0
      else if !tsOk a n then .fault .tsRange 0
      else if t.marked a n then .fault .poison 0
      else
        .go (Tile.enter { t with mat := t.mat ++ [.mmul (Fin.ofNat 2 w.d.toNat) m w.t st (t.read a n) (satBit w) true] })
    | _, _ => .fault .operand 0

/-- macz: zeroes the accumulator once it is free (R157). -/
def maczOp (w : DyWord) (t : Tile) : TStep :=
  let k : Fin 2 := Fin.ofNat 2 w.d.toNat
  if t.mat.any (fun o => o.acc = k) then .hold else .go { t with acc := t.acc.set k [] }

/-- FMAX as a magnitude (Table 7.2). -/
def fmaxOf (ty : BitVec 4) : FVal :=
  match ty.toNat with
  | 9 => .fin false 448 0 | 10 => .fin false 57344 0 | 12 => .fin false 6 0 | 0 => .fin false 127 0 | _ => .fin false 7 0

/-- Bytes of an output row of macst (R177). -/
def outPitch (ty : BitVec 4) : Nat :=
  match ty.toNat with
  | 7 => 256 | 8 => 512 | 11 | 12 => 64 | _ => 128

/-- The conversion record's fields (Tables 7.4, 7.5). -/
structure ConvRec where
  ctrl : Nat
  rows : Nat
  cap  : Nat
  corr : Nat
deriving DecidableEq, Repr

def Tile.convRec (t : Tile) (b : Nat) : ConvRec :=
  { ctrl := ofBytesLE (t.read (b + 0x800) 4), rows := (t.byte (b + 0x804)).toNat,
    cap := min 2048 (ofBytesLE (t.read (b + 0x808) 4) % 4096), corr := ofBytesLE (t.read (b + 0x80C) 4) % 2 ^ 21 }
def ConvRec.zp (r : ConvRec) : Bool := r.ctrl % 2 = 1
def ConvRec.corrEn (r : ConvRec) : Bool := r.ctrl / 2 % 2 = 1
def ConvRec.shift (r : ConvRec) : Nat := min 6 (r.ctrl / 16 % 8)

/-- The four regions of a macst: first byte and length (R179). -/
def macstRegions (ty : BitVec 4) (a b c : Nat) (r : ConvRec) : List (Nat × Nat) :=
  [(a, r.rows * outPitch ty), (b, 0xC40), (c, 320 + 8 * r.cap)] ++ (if r.corrEn then [(r.corr, 32768)] else [])
def overlap (x y : Nat × Nat) : Bool := decide (x.1 < y.1 + y.2) && decide (y.1 < x.1 + x.2)
def anyOverlap : List (Nat × Nat) → Bool
  | [] => false
  | x :: xs => xs.any (overlap x) || anyOverlap xs

def macstOp (w : DyWord) (t : Tile) : TStep :=
  let a := (t.sreg w.a).toNat
  let b := (t.sreg w.b).toNat
  let c := (t.sreg (DyC w)).toNat
  let r := t.convRec b
  let regions := macstRegions w.t a b c r
  if t.busyS [w.a, w.b, DyC w] then .hold
  else if a % 64 ≠ 0 ∨ b % 64 ≠ 0 ∨ c % 64 ≠ 0 then .fault .align 0
  else if !tsOk b 0xC40 then .fault .tsRange 0
  else if t.marked b 0x400 || (r.zp && t.marked (b + 0x400) 0x200) || t.marked (b + 0x600) 0x240 then .fault .poison 0
  else if r.corrEn && r.corr % 64 ≠ 0 then .fault .align 0
  else if regions.any (fun x => !tsOk x.1 x.2) then .fault .tsRange 0
  else if r.rows = 0 ∨ 128 < r.rows ∨ anyOverlap regions then .fault .operand 0
  else if r.corrEn && t.marked r.corr 32768 then .fault .poison 0
  else .go { t with mat := t.mat ++ [.macst (Fin.ofNat 2 w.d.toNat) w.t a b c] }

/-! ### macst (R173–R181) -/

/-- y[r][j] (R173), every step rounded to binary32. -/
def macstY (t : Tile) (acc : AMap (BitVec 32)) (b : Nat) (r : ConvRec) (row j : Nat) : BitVec 32 :=
  let y := mapGet 0 acc (row * 128 + j)
  let y := if r.zp then toF32 (fadd (f32 y) (fneg (fmul (f32 (t.loadWord (b + 0x400 + 4 * row))) (f32 (t.loadWord (b + 0x600 + 4 * j)))))) else y
  let y := f32Mul y (t.loadWord (b + 0x200 + 4 * row))
  let y := f32Mul y (t.loadWord (b + 4 * j))
  if r.corrEn then toF32 (fadd (f32 y) (fdecode fmtBF16 (ofBytesLE (t.read (r.corr + 256 * row + 2 * j) 2)))) else y

def isEscType (ty : BitVec 4) : Bool := (escapeCode ty).isSome

/-- The escape threshold of a row (R174): the mean magnitude, in the fixed tree of vred, times 2^ESC_SHIFT. -/
def rowTheta (shift : Nat) (ys : List (BitVec 32)) : BitVec 32 :=
  let mags := ys.map fun y => some (if (f32 y).isFin then y &&& 0x7FFFFFFF else 0)
  let m := f32Mul ((pairTree f32Add 8 mags).getD 0) (toF32 (.fin false 1 (-7)))
  f32Mul m (toF32 (.fin false 1 shift))
def escaped (ty : BitVec 4) (shift : Nat) (theta y : BitVec 32) : Bool :=
  isEscType ty && decide (shift ≠ 0) && (!(f32 y).isFin || fltLt (f32 theta) (f32 y).abs)

/-- The row scale of a signed narrow type (R175): the largest magnitude kept over FMAX; 1.0 where it is zero or absent. -/
def rowScale (ty : BitVec 4) (kept : List (BitVec 32)) : BitVec 32 :=
  let m := kept.foldl (fun x y => if (f32 y).isFin && fltLt (f32 x) (f32 y).abs then y &&& 0x7FFFFFFF else x) 0
  if m = 0 then 0x3F800000 else BitVec.ofNat 32 (fdivRound fmtF32 (f32 m) (fmaxOf ty))

/-- y / s as a fraction: sign, numerator, denominator. -/
def quotFrac : FVal → FVal → Bool × Nat × Nat
  | .fin a m e, .fin b n g => let (p, q) := scaleFrac m n (e - g); (a != b, p, q)
  | _, _ => (false, 0, 1)

/-- The code of ±FMAX. -/
def fmaxCodeOf (ty : BitVec 4) (neg : Bool) : Nat :=
  match ty.toNat with
  | 0 => if neg then 129 else 127
  | 11 => if neg then 9 else 7
  | _ => fsign (tyFmt ty) neg + fmaxCode (tyFmt ty)

/-- The code of a value that is not escaped (R175). -/
def narrowCode (ty : BitVec 4) (s y : BitVec 32) : Nat :=
  match f32 y with
  | .nan => if ty.toNat = 9 ∨ ty.toNat = 10 then 0x7F else 0
  | .inf n => fmaxCodeOf ty n
  | .fin n m e =>
    if m = 0 then 0
    else
      let (neg, p, q) := quotFrac (.fin n m e) (f32 s)
      if q = 0 then fmaxCodeOf ty n
      else
        let c := if tyInt ty then
            (let v := roundDiv .rn p q
             let lim := if ty.toNat = 0 then 127 else 7
             intLane ty false (if neg then -(min v lim : Nat) else (min v lim : Nat)))
          else roundSat (tyFmt ty) .rn neg p q
        if escapeCode ty = some c then 0 else c

/-- U8: scale and zero point of a row (R176). -/
def u8Params (ys : List (BitVec 32)) : BitVec 32 × Nat :=
  let fins := ys.filter fun y => (f32 y).isFin
  let lo := fins.foldl (fun x y => if fltLt (f32 y) (f32 x) then y else x) 0
  let hi := fins.foldl (fun x y => if fltLt (f32 x) (f32 y) then y else x) 0
  let d := fadd (f32 hi) (fneg (f32 lo))
  match d with
  | .fin _ 0 _ => (0x3F800000, 0)
  | _ =>
    let s := BitVec.ofNat 32 (fdivRound fmtF32 d (.fin false 255 0))
    let (_, p, q) := quotFrac (f32 lo) (f32 s)
    (s, if q = 0 then 255 else min 255 (roundDiv .rn p q))
def u8Code (s : BitVec 32) (z : Nat) (y : BitVec 32) : Nat :=
  match f32 y with
  | .nan => z
  | .inf n => if n then 0 else 255
  | v =>
    let (neg, p, q) := quotFrac v (f32 s)
    let k : Int := if q = 0 then 255 else roundDiv .rn p q
    (max 0 (min 255 ((if neg then -k else k) + z))).toNat

/-- One converted row: its escaped columns, scale, zero point and codes; `room` is how many of its escapes find an entry (R181). -/
structure MacRow where
  esc   : List (Nat × BitVec 32)
  scale : BitVec 32
  zp    : BitVec 32
  codes : List Nat
deriving DecidableEq, Repr

def macstRow (ty : BitVec 4) (shift room : Nat) (ys : List (BitVec 32)) : MacRow :=
  let theta := rowTheta shift ys
  let cols := List.zip (List.range 128) ys
  let esc := cols.filter fun (_, y) => escaped ty shift theta y
  let listed := (esc.take room).map (·.1)
  if ty.toNat = 1 then
    let (s, z) := u8Params ys
    ⟨[], s, toF32 (.fin false z 0), ys.map (u8Code s z)⟩
  else if ty.toNat = 7 then ⟨[], 0x3F800000, 0, ys.map fun y => fencode fmtBF16 (f32 y)⟩
  else if ty.toNat = 8 then ⟨[], 0x3F800000, 0, ys.map fun y => (toF32 (f32 y)).toNat⟩
  else
    let s := rowScale ty ((cols.filter fun (_, y) => !escaped ty shift theta y).map (·.2))
    ⟨esc, s, 0, cols.map fun (j, y) =>
      if escaped ty shift theta y then
        (if listed.contains j then (escapeCode ty).getD 0
         else if (f32 y).isNan then (if ty.toNat = 9 ∨ ty.toNat = 10 then 0x7F else 0) else fmaxCodeOf ty (f32 y).neg)
      else narrowCode ty s y⟩

/-- The codes of a row as bytes: two 4-bit elements a byte, the lower index in bits 3:0 (R167). -/
def rowBytes (ty : BitVec 4) (codes : List Nat) : List Byte :=
  match ty.toNat with
  | 7 => codes.flatMap (toBytesLE 2)
  | 8 => codes.flatMap (toBytesLE 4)
  | 11 | 12 => (List.range 64).map fun i => BitVec.ofNat 8 (codes.getD (2 * i) 0 + 16 * codes.getD (2 * i + 1) 0)
  | _ => codes.map (BitVec.ofNat 8)

/-- Rows converted in order, with the escapes of earlier rows counted. -/
def macstRows (ty : BitVec 4) (shift cap : Nat) : Nat → List (List (BitVec 32)) → List MacRow
  | _, [] => []
  | used, ys :: rest => let r := macstRow ty shift (cap - used) ys; r :: macstRows ty shift cap (used + r.esc.length) rest

/-- The side list (Table 7.6): header, row starts, entries. -/
def sideList (cap : Nat) (rows : List MacRow) : List Byte :=
  let need := (rows.map fun r => r.esc.length).sum
  let count := min need cap
  let starts := (List.range 128).map fun r => ((rows.take r).map fun x => x.esc.length).sum
  let entries := (List.zip (List.range rows.length) rows).flatMap fun (r, x) => x.esc.map fun (j, y) => (y, j + 256 * r)
  toBytesLE 4 count ++ toBytesLE 4 need ++ toBytesLE 4 (if cap < need then 1 else 0) ++ toBytesLE 52 0 ++ starts.flatMap (toBytesLE 2) ++
    (entries.take count).flatMap fun (y, k) => toBytesLE 4 y.toNat ++ toBytesLE 4 k

/-- What a macst writes when it completes, and whether its side list overflowed. -/
def Tile.macstDone (t : Tile) (k : Fin 2) (ty : BitVec 4) (a b c : Nat) : Tile × Bool :=
  let r := t.convRec b
  let ys := (List.range r.rows).map fun row => (List.range 128).map fun j => macstY t t.acc[k] b r row j
  let rows := macstRows ty r.shift r.cap 0 ys
  let need := (rows.map fun x => x.esc.length).sum
  let t := t.write a (rows.flatMap fun x => rowBytes ty x.codes)
  let t := t.write (b + 0x840) (rows.flatMap fun x => toBytesLE 4 x.scale.toNat)
  let t := t.write (b + 0xA40) (rows.flatMap fun x => toBytesLE 4 x.zp.toNat)
  (t.write c (sideList r.cap rows), decide (r.cap < need))

/-! ### The MV path (R162–R164) -/

/-- Elements of a word-sized group: the codes of a weight or activation at input `i`. -/
def mvWeight (ty : BitVec 4) (wts : List Byte) (j i : Nat) : Nat :=
  if tyWide ty then let o := (i / 2) * 256 + 4 * j + 2 * (i % 2); byteAtNat wts o + 256 * byteAtNat wts (o + 1)
  else if ty4 ty then let b := byteAtNat wts ((i / 8) * 256 + 4 * j + i % 8 / 2); if i % 2 = 0 then b % 16 else b / 16
  else byteAtNat wts ((i / 4) * 256 + 4 * j + i % 4)

/-- Inputs held by one line. -/
def mvPerLine (ty : BitVec 4) : Nat := if tyWide ty then 2 else if ty4 ty then 8 else 4

/-- Lane j after an mvx: exact line sums added in ascending line, each addition rounded (R163). -/
def mvLane (ty : BitVec 4) (wts : List Byte) (act : BitVec 2048) (old : BitVec 32) (j : Nat) : BitVec 32 :=
  (List.range 64).foldl (fun acc c =>
    let n := mvPerLine ty
    let term := fun i => fmul (peValue ty (mvWeight ty wts j i)) (peValue ty (lane act (laneBits ty) i))
    let sum := (List.range (n - 1)).foldl (fun v m => fadd v (term (n * c + m + 1))) (term (n * c))
    toF32 (fadd (f32 acc) sum)) old

def Tile.mvDone (t : Tile) (m : MvOp) : Tile :=
  (List.zip (List.range m.n) m.acts).foldl (fun t (q, act) =>
    let old := t.vnum (m.vd + q)
    t.setV (BitVec.ofNat 5 (m.vd + q)) (BitVec.ofNat 2048 (packLanes 32 ((List.range 64).map fun j =>
      (mvLane m.t m.wts act (BitVec.ofNat 32 (lane old 32 j)) j).toNat)))) t

def mvxOp (w : DyWord) (t : Tile) : TStep :=
  let n := (DySub w).toNat % 8 + 1
  let b := (t.sreg w.b).toNat
  let srcs := (List.range n).map (w.a.toNat + ·)
  if t.busyS [w.b] || t.busyV srcs then .hold
  else if b % 256 ≠ 0 then .fault .align 0
  else if !tsOk b 16384 then .fault .tsRange 0
  else if t.marked b 16384 then .fault .poison 0
  else .go { t with mv := t.mv ++ [⟨w.t, w.d.toNat, n, srcs.map t.vnum, t.read b 16384⟩] }

def execDyMstl (t : TileId) (w : DyWord) (s : State) : Out := dyRun 0x90 t w (mstlOp w) s
def execDyMswap (t : TileId) (w : DyWord) (s : State) : Out := dyRun 0x91 t w mswapOp s
def execDyMmul (t : TileId) (w : DyWord) (s : State) : Out := dyRun 0x92 t w (mmulOp w) s
def execDyMacst (t : TileId) (w : DyWord) (s : State) : Out := dyRun 0x93 t w (macstOp w) s
def execDyMacz (t : TileId) (w : DyWord) (s : State) : Out := dyRun 0x94 t w (maczOp w) s
def execDyMvx (t : TileId) (w : DyWord) (s : State) : Out := dyRun 0x95 t w (mvxOp w) s

/-! ### Completions -/

/-- A stationary load completes: st1 holds the operand, with its type (R148). -/
def Tile.mstlDone (t : Tile) : Tile :=
  match t.mstl with
  | some x => { t with st1 := some x, mstl := none }
  | none => t
def execMstlDone (t : TileId) (s : State) : Out := .next ((s.tick.modTile t Tile.mstlDone).unitsDone t)

/-- The ramp is complete: the waiting mmul's first line enters (R159). -/
def Tile.rampDone (t : Tile) : Tile := if t.activity = .ramping then { t with activity := .up }.enter else t
def execActivityRampDone (t : TileId) (s : State) : Out := .next (s.tick.modTile t Tile.rampDone)

/-- Does an mmul stream through the grid? -/
def MatOp.streams : MatOp → Bool
  | .mmul _ _ _ _ _ _ waits => !waits
  | _ => false

/-- After 64 CCLK of idle the array ramps down (R160); an mmul that has not entered leaves it idle (R159). -/
def Tile.idleTimeout (t : Tile) : Tile := if t.activity = .up && !(t.mat.any MatOp.streams) then { t with activity := .down } else t
def execArrayIdleTimeout (t : TileId) (s : State) : Out := .next (s.tick.modTile t Tile.idleTimeout)

/-- The first mmul completes, when nothing earlier on its accumulator is outstanding and it has entered. -/
def mmulPick : List MatOp → List MatOp → Option (Fin 2 × Nat × BitVec 4 × Stationary × List Byte × Bool × List MatOp)
  | _, [] => none
  | seen, .mmul k m ty w l z waits :: rest =>
    if !waits && !(seen.any fun o => o.acc = k) then some (k, m, ty, w, l, z, seen.reverse ++ rest) else none
  | seen, o :: rest => mmulPick (o :: seen) rest
def Tile.mmulDone (t : Tile) : Tile :=
  match mmulPick [] t.mat with
  | some (k, m, ty, w, l, z, rest) => { t with acc := t.acc.set k (accAfter t.acc[k] w ty m l z), mat := rest }
  | none => t
def execMmulDone (t : TileId) (s : State) : Out := .next ((s.tick.modTile t Tile.mmulDone).unitsDone t)

/-- The first macst whose accumulator no earlier operation still writes (R157). -/
def macstPick : List MatOp → List MatOp → Option (Fin 2 × BitVec 4 × Nat × Nat × Nat × List MatOp)
  | _, [] => none
  | seen, .macst k ty a b c :: rest => if seen.any fun o => o.acc = k then none else some (k, ty, a, b, c, seen.reverse ++ rest)
  | seen, o :: rest => macstPick (o :: seen) rest

def Tile.mvxDone (t : Tile) : Tile :=
  match t.mv with
  | m :: rest => { t.mvDone m with mv := rest }
  | [] => t
def execMvxDone (t : TileId) (s : State) : Out := .next ((s.tick.modTile t Tile.mvxDone).unitsDone t)

/-- A conversion completes; a side list that overflowed stops the kernel (R181). -/
def State.macstDone (s : State) (t : TileId) : State :=
  match macstPick [] s.tiles[t].mat with
  | some (k, ty, a, b, c, rest) =>
    let r := s.tiles[t].macstDone k ty a b c
    let s := s.modTile t fun _ => { r.1 with mat := rest }.enter
    (if r.2 then (s.sideOverflow t).settle else s).unitsDone t
  | none => s
def execMacstDone (t : TileId) (s : State) : Out := .next (s.tick.macstDone t)

end Sys2Proof.Machine
end

