-- ==== Sys2Proof/Machine/Dma.lean ====
section
/-! DEFINITION. The skewing DMA engine (R98, R99, R121–R123, R150, R151) and the completion of amoadd. Data move when DMA_DONE comes (log 16). -/
namespace Sys2Proof.Machine

/-- The space that a kernel's global addresses name. -/
def Tile.fn (t : Tile) : Fn :=
  match t.owner with
  | some n => vfOf n
  | none => pf0

/-- The rows of a DMA in global memory. -/
def Dma.rowsAt (d : Dma) : List Nat := (List.range d.rows).map fun i => d.ga + i * d.stride

def skewType (ty : BitVec 4) : Bool := [0, 1, 7, 9, 10, 11, 12].contains ty.toNat
/-- The shape that a .skew DMA must have (Table 6.4). -/
def skewShapeOk (d : Dma) : Bool :=
  let n := if tyWide d.t then 256 else 128
  d.len = n && decide (1 ≤ d.rows) && decide (d.rows ≤ 128) && decide (n ≤ d.stride)
/-- Bytes a DMA occupies in the tile store. -/
def Dma.tsBytes (d : Dma) : Nat := if d.skew then skewLines d.t d.rows * lineBytes d.t else d.len * d.rows

/-- The outcome of a DMA's checks at issue, in the order of R99. -/
inductive DmaCheck where
  | fault (c : Cause)
  | empty
  | ok
deriving DecidableEq, Repr

def State.dmaCheck (s : State) (f : Fn) (d : Dma) : DmaCheck :=
  if d.skew && !skewShapeOk d then .fault .operand
  else if d.ts % (if d.skew then 256 else 64) ≠ 0 ∨ d.len % 64 ≠ 0 then .fault .align
  else if d.len = 0 ∨ d.rows = 0 then .empty
  else if !tsOk d.ts d.tsBytes then .fault .tsRange
  else if d.rowsAt.any (fun a => decide (2 ^ 48 ≤ a) || !(if d.inward then s.covered f a d.len else s.writable f a d.len)) then .fault .gaddr
  else .ok

/-- The DMA that an instruction describes (R99). -/
def dmaOf (inward : Bool) (w : DyWord) (t : Tile) : Dma :=
  let c := (t.sreg (DyC w)).toNat
  { inward, skew := inward && satBit w, t := w.t, ts := (t.sreg w.a).toNat, ga := (t.sreg w.b).toNat, len := c % 65536, rows := c / 65536 % 65536,
    stride := c / 2 ^ 32, put := 0 }

/-- The global ranges of a DMA. -/
def Dma.ranges (d : Dma) : List (Nat × Nat) := d.rowsAt.map fun a => (a, d.len)
/-- Does every row begin, and so end, at a 64-byte block? -/
def Dma.aligned (d : Dma) : Bool := d.rowsAt.all fun a => decide (a % 64 = 0)
/-- The blocks of a DMA that lie in imports travel as transactions (R354, R380). Where a dmaout covers blocks in part, what it leaves of them is read first (log 38). -/
def State.askPool (s : State) (t : TileId) (tag : Fin 16) (d : Dma) : State :=
  match (s.tiles[t]).owner with
  | none => s
  | some n =>
    if !d.inward && !d.aligned then (s.seek (vfOf n) (tileDie t) [] d.ranges).pumpTxns n
    else s.wantTxns n ((s.poolBlocks (vfOf n) d.ranges).map fun x => if d.inward then .read t tag x.1 x.2 else .write t tag x.1 x.2)

def State.issueDma (s : State) (t : TileId) (inward : Bool) (w : DyWord) (tl : Tile) : State :=
  let tag : Fin 16 := Fin.ofNat 16 w.d.toNat
  let d := dmaOf inward w tl
  if tl.busyS [w.a, w.b, DyC w] || (tl.tags[tag]).isSome then s
  else match s.dmaCheck tl.fn d with
    | .fault c => s.faultKernel t c 0
    | .empty => s.modTile t Tile.advance
    | .ok => (s.modTile t fun x => { x with tags := x.tags.set tag (some d) }.advance).askPool t tag d

def execDyDmain (t : TileId) (w : DyWord) (s : State) : Out := dyRunS 0xA0 t w (fun tl s => s.issueDma t true w tl) s
def execDyDmaout (t : TileId) (w : DyWord) (s : State) : Out := dyRunS 0xA1 t w (fun tl s => s.issueDma t false w tl) s
/-- dmawait: until every tag named in IMM[15:0] is idle. -/
def dmawaitOp (w : DyWord) (t : Tile) : TStep :=
  if (List.range 16).any fun i => w.low.getLsbD i && (t.tags[Fin.ofNat 16 i]).isSome then .hold else .go t
def execDyDmawait (t : TileId) (w : DyWord) (s : State) : Out := dyRun 0xA2 t w (dmawaitOp w) s

/-- Does an address lie in one of the pages `l` of the pool of model `model` (R312)? Pools of two models may overlap. -/
def kvHolds (keep : Retained) (model : Nat) (l : List Nat) (a : Nat) : Bool :=
  keep.models.any fun m =>
    let base := bytesField m.bytes 0x10 8
    let size := bytesField m.bytes 0x1C 4
    decide (m.handle = model) && decide (base ≤ a) && decide (size ≠ 0) && l.contains ((a - base) / size)

/-- The model handle that a request's program binds (Table 12.7). -/
def genModelOf (keep : Retained) (program : Nat) : Nat :=
  match keep.programs.find? (fun p => p.handle = program) with
  | some p => bytesField p.bytes 6 2
  | none => 0xFFFF

/-- A cancelled request's private page: DMA writes are discarded and reads return zero (R319). -/
def Serving.kvMasked (v : Serving) (a : Nat) : Bool :=
  v.requests.any fun q => q.cancelled && kvHolds v.keep (genModelOf v.keep q.program) q.pages a
/-- A ready handle's page: DMA writes are discarded (R313). -/
def Serving.kvSealed (v : Serving) (a : Nat) : Bool :=
  v.handles.any fun h => h.ready && kvHolds v.keep h.key.model h.pages a

def State.kvMasked (s : State) (f : Fn) (a : Nat) : Bool := match stallOf f with | some n => (s.serving[n]).kvMasked a | none => false
def State.kvSealed (s : State) (f : Fn) (a : Nat) : Bool := match stallOf f with | some n => (s.serving[n]).kvSealed a | none => false

/-- One 64-byte block read for a DMA: bytes and mark. Masked pages read as zero; they begin and end at multiples of 4,096. -/
def State.dmaBlock (s : State) (f : Fn) (a : Nat) : List Byte × Bool :=
  let lo := s.kvMasked f a
  let hi := s.kvMasked f (a + 63)
  let cut := 4096 - a % 4096
  if !lo && !hi then (s.readMem f a 64, s.poisoned f a 64)
  else
    let bytes := s.readMem f a 64
    let live := fun (i : Nat) => if i < cut then !lo else !hi
    (((List.range 64).zip bytes).map fun x => if live x.1 then x.2 else 0, (List.range 64).any fun i => live i && s.poisoned f (a + i) 1)

/-- Copy a block into a tile store with its mark (R123). -/
def Tile.putBlock (t : Tile) (a : Nat) (b : List Byte × Bool) : Tile := if b.2 then (t.write a b.1).mark a else t.write a b.1

/-- A plain dmain: rows packed without gaps. -/
def State.dmaIn (s : State) (f : Fn) (d : Dma) (tl : Tile) : Tile :=
  (List.zip (List.range d.rows) d.rowsAt).foldl (fun tl (i, a) =>
    (List.range (d.len / 64)).foldl (fun tl j => tl.putBlock (d.ts + i * d.len + 64 * j) (s.dmaBlock f (a + 64 * j))) tl) tl

/-- The position in a skewed block of byte x of row r: its line and its byte (R150). -/
def skewPos (ty : BitVec 4) (r x : Nat) : Nat × Nat := if tyWide ty then (2 * r + x / 2, x) else (r + x, x)

/-- A .skew dmain: the whole block, zero positions included; a mark on every block that holds a byte of a poisoned source block (R123, R151). -/
def State.dmaSkew (s : State) (f : Fn) (d : Dma) (tl : Tile) : Tile :=
  let lb := lineBytes d.t
  let tl := tl.write d.ts (List.replicate d.tsBytes 0)
  (List.zip (List.range d.rows) d.rowsAt).foldl (fun tl (r, a) =>
    (List.range d.len).foldl (fun tl x =>
      let b := s.dmaBlock f (a + x / 64 * 64)
      let (l, p) := skewPos d.t r x
      let at_ := d.ts + l * lb + p
      let tl := tl.write at_ [b.1.getD (x % 64) 0]
      if b.2 then tl.mark at_ else tl) tl) tl

/-- A piece of a dmaout that lies within one 4 KiB sector: its tile store address, its global address, its bytes, and whether its row covers its whole page. -/
structure DmaPiece where
  src   : Nat
  dst   : Nat
  n     : Nat
  whole : Bool
deriving DecidableEq, Repr

/-- The pieces of a row. `fuel` bounds the sectors. -/
def rowPieces (lo hi : Nat) : Nat → Nat → Nat → List DmaPiece
  | 0, _, _ => []
  | k + 1, src, dst =>
    if hi ≤ dst then []
    else
      let n := min (4096 - dst % 4096) (hi - dst)
      let page := dst / 65536 * 65536
      ⟨src, dst, n, decide (lo ≤ page) && decide (page + 65536 ≤ hi)⟩ :: rowPieces lo hi k (src + n) (dst + n)
/-- The pieces of a dmaout, in the order in which they move. -/
def Dma.pieces (d : Dma) : List DmaPiece :=
  (List.zip (List.range d.rows) d.rowsAt).flatMap fun x => rowPieces x.2 (x.2 + d.len) (d.len / 4096 + 2) (d.ts + x.1 * d.len) x.2

/-- Write a piece with the marks of its blocks (R123, R440); cancelled requests' and sealed pages discard it (R313, R319). -/
def State.storePiece (s : State) (f : Fn) (die : Die) (tl : Tile) (p : DmaPiece) : State :=
  if s.kvMasked f p.dst || s.kvSealed f p.dst then s
  else (List.range p.n).foldl (fun s i => if tl.marked (p.src + i) 1 then s.markMem f (p.dst + i) else s) (s.writeMem f p.dst (tl.read p.src p.n) die)

/-- Write a piece if its page can take it now; the answer says whether it has. A piece in an import has gone with its transaction, or goes once the blocks that it
covers in part are here. -/
def State.putPiece (s : State) (f : Fn) (die : Die) (aligned : Bool) (tl : Tile) (p : DmaPiece) : State × Bool :=
  match s.importAt f p.dst, s.allocAt f p.dst with
  | some _, _ =>
    if aligned then (s, true)
    else if s.poolHere f (partBlocks [(p.dst, p.n)]) then (s.storePiece f die tl p, true) else (s, false)
  | none, some a =>
    let r := s.stagePage f a p.dst (p.whole || decide (s.stagingPages (a.owner f) = 0 ∧ p.n = 4096))
    if r.2 then (r.1.storePiece f die tl p, true) else r
  | none, none => (s, true)

/-- Write pieces in order until one waits; how many were written. -/
def State.putPieces (f : Fn) (die : Die) (aligned : Bool) (tl : Tile) : List DmaPiece → State → State × Nat
  | [], s => (s, 0)
  | p :: rest, s =>
    let r := s.putPiece f die aligned tl p
    if r.2 then let q := State.putPieces f die aligned tl rest r.1; (q.1, q.2 + 1) else (r.1, 0)

/-- What a DMA has done: its tag idles, or it keeps what it has still to write. -/
def Tile.dmaPut (tl : Tile) (tag : Fin 16) (d : Dma) (k : Nat) : Tile :=
  { tl with tags := tl.tags.set tag (if d.put + k = d.pieces.length then none else some { d with put := d.put + k }) }

/-- A DMA completes: its bytes have moved and its tag is idle. A read of the Commons moves only in a Commons turn of the Stall (R55, R86); a write to the flash tier
waits for its staging pages and goes on from there (R340), so that more than one DMA_DONE may come of it. -/
def State.dmaDone (s : State) (t : TileId) (tag : Fin 16) : State :=
  let tl := s.tiles[t]
  match tl.tags[tag], tl.owner with
  | some d, some n =>
    let f := vfOf n
    if s.txnBusy n (TxnKind.dma t tag) then s
    else if d.inward then
      if s.canRead f d.ranges then
        (s.noteReads f d.ranges (tileDie t)).modTile t fun tl =>
          let tl := if d.skew then s.dmaSkew f d tl else s.dmaIn f d tl
          { tl with tags := tl.tags.set tag none }
      else s
    else
      let r := State.putPieces f (tileDie t) d.aligned tl (d.pieces.drop d.put) s
      r.1.modTile t fun tl => tl.dmaPut tag d r.2
  | _, _ => s
def execDmaDone (t : TileId) (tag : Fin 16) (s : State) : Out := .next ((s.tick.dmaDone t tag).unitsDone t)

/-! ### amoadd (R104) -/

def State.issueAmo (s : State) (t : TileId) (w : DyWord) (tl : Tile) : State :=
  let a := (tl.sreg w.a).toNat
  if tl.busyS [w.d, w.a, w.b] then s
  else if a % 8 ≠ 0 then s.faultKernel t .align 0
  else if 2 ^ 48 ≤ a || !s.writable tl.fn a 8 then s.faultKernel t .gaddr 0
  else if s.poisoned tl.fn a 8 then (s.noteReads tl.fn [(a, 8)]).faultKernel t .poison 0
  else
    let s := s.modTile t fun x => { x with amo := x.amo ++ [(Fin.ofNat 32 w.d.toNat, a, tl.sreg w.b)] }.advance
    match tl.owner with
    | some n => if (s.importAt (vfOf n) a).isSome then s.wantTxns n [.amo t (Fin.ofNat 32 w.d.toNat) a (tl.sreg w.b)] else s
    | none => s
def execDyAmoadd (t : TileId) (w : DyWord) (s : State) : Out := dyRunS 0xC3 t w (fun tl s => s.issueAmo t w tl) s

/-- The amoadd to `r` is over: sD takes the word's old value. -/
def Tile.amoEnds (tl : Tile) (r : Fin 32) (old : BitVec 64) : Tile :=
  ({ tl with amo := tl.amo.filter fun x => x.1 ≠ r, amoGot := tl.amoGot.filter fun x => x.1 ≠ r }).setS (BitVec.ofNat 5 r.val) old
/-- An amoadd completes: the word gains the addend, wrapping, and sD the old value. One to an import was performed at the exporting module, which answered the old
value (R354); one to the flash tier waits for its staging page (R340). -/
def State.amoDone (s : State) (t : TileId) (r : Fin 32) : State :=
  let tl := s.tiles[t]
  match tl.amo.find? (fun x => x.1 = r), tl.owner with
  | some (_, a, v), some n =>
    let f := vfOf n
    if s.txnBusy n (TxnKind.amoOf t r) then s
    else match tl.amoGot.find? (fun x => x.1 = r), s.allocAt f a with
      | some g, _ => s.modTile t fun tl => tl.amoEnds r g.2
      | none, some al =>
        let w := s.stagePage f al a false
        if w.2 then
          let old := BitVec.ofNat 64 (s.readNat f a 8)
          (w.1.writeNat f a 8 (old + v).toNat (tileDie t)).modTile t fun tl => tl.amoEnds r old
        else w.1
      | none, none => s.modTile t fun tl => tl.amoEnds r 0
  | _, _ => s
def execAmoaddDone (t : TileId) (reg : Fin 32) (s : State) : Out := .next ((s.tick.amoDone t reg).unitsDone t)

end Sys2Proof.Machine
end

