-- ==== Sys2Proof/Machine/Resets.lean ====
section
/-! DEFINITION. Warm, cold and Stall resets, the start-up sequence, and how the module loses power (R397, R424, R429, R495–R501). -/
namespace Sys2Proof.Machine

/-! ### What a warm or cold reset clears (Table 20.10) -/

/-- Is a register key one of the PWR block, which keeps its values through a warm reset and standby (R437)? -/
def pwrKey (k : Nat) : Bool := decide (16 * 2 ^ 28 + 0x80000 ≤ k) && decide (k < 16 * 2 ^ 28 + 0x90000)
/-- Every status register but PWR_STATUS, by key. -/
def warmStatCodes : List Nat :=
  [0, 1, 2, 3, 4, 6, 7, 8, 9, 10, 11] ++ (List.range 32).map (· + 16) ++ (List.range 32).map (· + 64) ++ (List.range 256).map (· + 256)
/-- A warm reset clears every status register but PWR_STATUS, each with one more SEQ (R37). -/
def clearStatus (m : AMap Status) (now : Nat) : AMap Status := warmStatCodes.foldl (fun m k => mapSet Status.zero m k ((mapGet Status.zero m k).resetWarm now)) m

def Serving.restart (v : Serving) : Serving := { Serving.reset with charged := v.charged, nWalks := v.nWalks, nHits := v.nHits, nTokens := v.nTokens }
def Tile.restart (t : Tile) : Tile := { Tile.reset with items := t.items, steals := t.steals }
def Port.restart (x : Port) : Port := { Port.reset with fecc := x.fecc, fecu := x.fecu, replays := x.replays, laserTemp := x.laserTemp, red := x.red, yel := x.yel }
/-- Images stand at their committed state; nothing is allocated; units that waited for a free unit are retired (R342, R446). -/
def MemUnit.restart (m : MemUnit) (pending : List (Nat × Nat)) (cold : Bool) : MemUnit :=
  { m with fns := m.fns.map fun x => if cold then FnMem.reset else { FnMem.reset with qfail := x.qfail }
           cells := [], poison := [], prov := none, provAt := 0, cache := Vector.replicate 4 [], ring := [], presStatus := .ok, presSkipped := 0, pfreed := 0, unclean := []
           gret := pending.foldl (fun g u => mapSet 0 g u.1 (mapGet 0 g u.1 + 1)) m.gret }
def Ras.restart (x : Ras) (cold : Bool) : Ras :=
  let r := { Ras.reset with retired := x.retired + BitVec.ofNat 24 x.pending.length }
  if cold then r else { r with lost := x.lost, ce := x.ce, ue := x.ue, counts := x.counts }
def Power.restart (p : Power) : Power :=
  { p with distReg := 0, distV := 0, dips := 0, vin := 0, vmin := 0, vmax := 0, iin := 0, pinMs := 0, pinChurn := 0, ripple := 0, energy := 0, tmax := p.temps, cml := false,
           pmRail := false, pmTemp := false, pmInput := 0, page := 0 }

/-- The slot that the reset boots: a staged bundle in trial, else the permanent one (Table 19.5). -/
def Sec.boot (x : Sec) (cold : Bool) : Sec :=
  let y := { x with kslots := 0, scrub := Vector.replicate 16 (true, 0), certs := Vector.replicate 16 none, cmd := none, result := .ok, reason := 0,
                    ctx := Vector.replicate 17 SpdmCtx.reset, streams := Vector.replicate 5 ⟨false, none⟩, recovery := [], idOk := x.idOk && !cold, fallback := false }
  if x.trialNext then { y with slot := x.bootNext, trial := true, trialNext := false, staged := false, bootNext := !x.bootNext }
  else { y with slot := x.bootNext, trial := false }
/-- Boot the slot that the last boot did not use, as a fallback (R458, R463). -/
def Sec.fallBack (x : Sec) : Sec := { x with slot := !x.slot, bootNext := !x.slot, trial := false, trialNext := false, fallback := true }

/-- Does a commit record that is not known to have left the write buffer survive its loss? Open for each image (log 3). -/
def MemUnit.loseBuffer (m : MemUnit) (kept : Nat) : MemUnit :=
  let l := m.images.map fun i => match m.onFlash.find? fun j => j.slot = i.slot ∧ j.gen = i.gen with
    | some j => if kept.testBit (i.slot % 64) then i else j
    | none => i
  { m with images := l, onFlash := l }

/-- Everything that the start-up sequence finds cleared, but for the laser hours. -/
def State.blankAll (s : State) (cold : Bool) : State :=
  { s with regs := if cold then [] else s.regs.filter fun x => pwrKey x.1
           pendT := [], holdRd := [], holdWr := [], answer := [], status := if cold then [] else clearStatus s.status s.now, counters := []
           host := Vector.replicate 17 HostFn.reset, stalls := Vector.replicate 16 StallSt.reset
           churn := if cold then Churn.reset else { Churn.reset with mhz := s.churn.mhz, glideFrom := s.churn.glideFrom, glideAt := s.churn.glideAt }
           tiles := s.tiles.map fun t => if cold then Tile.reset else t.restart
           serving := s.serving.map fun v => if cold then Serving.reset else v.restart
           nextBatch := 0, mem := s.mem.restart s.ras.pending cold
           fabric := if cold then Fabric.reset else { Fabric.reset with ports := s.fabric.ports.map Port.restart }
           power := if cold then s.power.restart else s.power
           ras := s.ras.restart cold }
/-- Everything that the start-up sequence finds cleared; the lasers are off. The write buffer keeps what it holds until it is programmed (R346, R424). -/
def State.blank (s : State) (cold : Bool) : State := (s.saveBuffer.blankAll cold).relight

/-! ### Warm reset -/

/-- A warm reset begins: the log takes its record and is sealed, and the phases of Table 20.11 run from phase 2 (R490, R498). One that arrives before READY, or
while a hold-up commit runs, begins nothing (R500, R501). -/
def State.warmReset (s : State) (cause : Nat) : State :=
  if s.power.commit.isSome ∨ (s.mgt.stage ≠ 9 ∧ s.mgt.stage ≠ 11) then s
  else
    let s := (s.log 3 (toBytesLE 4 cause)).seal
    let s := (s.blank false).modSec fun x => x.boot false
    s.modMgt fun m => { m with stage := 2, cause, done7 := false, done8 := false, warm := true, linkUp := false, logRun := none, logRes := .ok, telem := List.replicate 64 0, trialAt := s.now }

/-- A command that reaches the device by whatever road: it takes its BCLK. -/
def always (f : State → State) (s : State) : Out := .next (f s.tick)

def execGlbResetWarm (s : State) : Out := always (fun s => if s.mgt.linkUp then s.warmReset 5 else s) s
/-- HOST_PERST_N asserted: before READY it delays only the link (R500). -/
def execHostPerstNAssert (s : State) : Out := always (fun s => (s.modMgt fun m => { m with perst := true, linkUp := false }).warmReset 2) s
/-- HOST_PERST_N deasserted: the link trains once phase 5 has applied the configuration record (R500). -/
def State.linkTrain (s : State) : State := if s.sec.idOk ∧ !s.mgt.perst ∧ 7 ≤ s.mgt.stage ∧ s.mgt.stage ≤ 9 then s.modMgt fun m => { m with linkUp := true } else s
def execHostPerstNDeassert (s : State) : Out := always (fun s => (s.modMgt fun m => { m with perst := false }).linkTrain) s
/-- A hot reset or DL_Down takes the link down and resets; before READY it delays only the link, which trains again. -/
def State.linkReset (s : State) (cause : Nat) : State := if s.mgt.linkUp then ((s.modMgt fun m => { m with linkUp := decide (s.mgt.stage ≠ 9 ∧ s.mgt.stage ≠ 11) }).warmReset cause) else s
def execHotReset (s : State) : Out := always (fun s => s.linkReset 3) s
def execDlDown (s : State) : Out := always (fun s => s.linkReset 3) s
def execFlrPf0 (s : State) : Out := always (fun s => if s.mgt.linkUp then s.warmReset 4 else s) s
/-- The sideband command answers its completion code: 0, or 0x05 where its condition does not hold (R480). -/
def execWarmReset (s : State) : Out :=
  always (fun s =>
    if s.mgt.stage = 0 ∨ s.mgt.stage = 12 then s
    else if (s.reg .mgt 0x008).getLsbD 1 ∧ s.power.commit.isNone ∧ (s.mgt.stage = 9 ∨ s.mgt.stage = 11) then ({ s.warmReset 7 with answer := [0] })
    else { s with answer := [5] }) s

/-! ### Stall resets (R495, R497) -/

/-- GLB_RESET.STALL: a reset of every Stall whose bit is 1. -/
def execGlbResetStall (stalls : BitVec 16) (s : State) : Out :=
  evs (fun s => if s.mgt.linkUp then (allStalls.filter fun n => stalls.getLsbD n.val).foldl (fun s n => s.resetStall n) s else s) s
/-- A function-level reset also clears the function's Bus Master Enable and masks its MSI-X vectors, with what waited for them (log 57). -/
def State.resetFunction (s : State) (n : StallId) : State :=
  (s.resetStall n).modHost (vfOf n) fun h => { h with bme := false, masked := BitVec.allOnes 32, pba := 0, held := [] }
def execFlrVf (n : StallId) (s : State) : Out := evs (fun s => if s.mgt.linkUp then s.resetFunction n else s) s
/-- VF Enable cleared: every VF is reset (Table 16.2). -/
def execVfEnableClear (s : State) : Out := evs (fun s => if s.mgt.linkUp then allStalls.foldl (fun s n => s.resetFunction n) s else s) s

/-! ### The start-up sequence (Table 20.11) -/

/-- A FIRMWARE record: 1 STAGE, 2 ACTIVATE, 3 COMMIT, 4 REVERT, 5 FALLBACK; the slot; the SVNs of its bundle (Table 20.7). -/
def State.logFw (s : State) (op : Nat) (slot : Bool) : State :=
  let l := if slot then s.sec.bundleB else s.sec.bundleA
  s.log 6 (toBytesLE 1 op ++ toBytesLE 1 (if slot then 1 else 0) ++ l.flatMap fun c => toBytesLE 2 c.svn)
/-- A fallback: the root of trust warm-resets into the other slot (R463). -/
def State.fallbackReset (s : State) : State :=
  let s := (s.log 3 (toBytesLE 4 6)).seal
  let x := s.sec
  let s := ((s.blank false).modSec fun y => { (y.boot false).fallBack with slot := !x.slot, bootNext := !x.slot })
  let s := s.modMgt fun m => { m with stage := 2, cause := 6, done7 := false, done8 := false, warm := true, linkUp := false, trialAt := s.now }
  (s.raise .sec 0x2).logFw 5 s.sec.slot
/-- A bundle of the boot slot is refused (R458, R463): a trial falls back by a warm reset, another boot tries the other slot, and with both refused recovery begins. -/
def State.bootRefused (s : State) : State :=
  if s.sec.trial then s.fallbackReset
  else if s.sec.fallback then s.modMgt fun m => { m with stage := 12 }
  else ((s.modSec Sec.fallBack).modMgt fun m => { m with stage := 4 }).raise .sec 0x2
/-- Has the boot slot a bundle? -/
def Sec.hasBundle (x : Sec) : Bool := !x.running.isEmpty

/-- The configuration record of a CFG body (Table 19.4). -/
def cfgOf (b : List Byte) : CfgRecord :=
  { ssvid := bytesField b 0 2, ssdid := bytesField b 2 2, limitMax := bytesField b 4 2, bankNom := bytesField b 6 2, hostWidth := bytesField b 8 1, spdmVf := bytesField b 9 1 = 1 }
def State.bootWord (s : State) : Nat := s.mgt.stage + s.mgt.cause * 2 ^ 8 + s.mgt.pdown * 2 ^ 12
/-- SEC_STATE (Table 19.9). -/
def Sec.word (x : Sec) : Nat :=
  (if x.slot then 1 else 0) + (if x.fallback then 2 else 0) + (if x.trial then 4 else 0) + (if x.trialNext then 8 else 0) + (if x.staged then 16 else 0) + (if x.idOk then 32 else 0)
/-- GLB_IDENT at stepping B0 (R5). -/
def glbIdent : Word := 0x91401020
/-- The POWER_DOWN record from the always-on MRAM, whose area is cleared, with the PWR_STATUS event of its kind (R491). -/
def State.powerDownRecord (s : State) : State :=
  match s.power.mram with
  | some (kind, d, v, x) =>
    let s := (s.log 2 (toBytesLE 4 kind ++ toBytesLE 4 d.toNat ++ toBytesLE 4 v.toNat ++ toBytesLE 4 x)).modPower fun p => { p with mram := none }
    s.raise .pwr (if kind = 1 then pwHoldup else if kind = 2 then pwRail else pwTrip)
  | none => s
def State.powerOnRecord (s : State) : State :=
  s.log 1 (toBytesLE 4 s.bootWord ++ toBytesLE 4 glbIdent.toNat ++ toBytesLE 4 s.sec.word ++ [1, 2, 3, 4].flatMap fun k => toBytesLE 2 (s.sec.svn k))
/-- Phase 5: MC, DEV and CFG verified, the configuration record applied, the records made. -/
def State.phase5 (s : State) : State :=
  let s := match s.sec.comp? 4 with
    | some c => if c.body.length < 64 then s else s.modSec fun x => { x with cfg := cfgOf c.body }
    | none => s
  let s := if s.mgt.warm then s else s.powerDownRecord.powerOnRecord
  s.modMgt fun m => { m with stage := 6 }

/-- Tiles that failed the start-up self-test enter quarantine with cause 5 (Table 5.5). -/
def State.failTiles (s : State) (l : List TileId) : State := (allTiles.filter fun t => l.contains t).foldl (fun s t => s.quarantine t 5) s

/-- READY (R501, Table 20.12): phases 7 and 8 complete and the bank at or above V_RES. Records left unsealed are sealed (R490). -/
def State.tryReady (s : State) : State :=
  if s.mgt.done7 ∧ s.mgt.done8 ∧ s.power.vres ≤ s.power.bankV ∧ 6 ≤ s.mgt.stage ∧ s.mgt.stage ≤ 8 then
    let s := if s.mgt.warm then s else s.seal
    (s.modMgt fun m => { m with stage := 9, warm := false }).raise .mgt 0x1
  else s
/-- A phase completes. Phases 1 to 5 run in order; 6 and 7 run beside 8. -/
def State.phaseDone (s : State) (o : PhaseOutcome) : State :=
  let st := s.mgt.stage
  let go := fun (k : Nat) => s.modMgt fun m => { m with stage := k }
  if s.power.commit.isSome ∨ st = 0 ∨ 9 ≤ st then s
  else if o.phase = 8 then
    if 6 ≤ st ∧ !s.mgt.done8 then (s.modMgt fun m => { m with done8 := true }).tryReady else s
  else if o.phase.val ≠ st then s
  else match st with
    | 1 => if s.power.vstby then go 2 else s
    | 2 => if s.mgt.warm then (go 4).modMem fun m => { m with onFlash := m.images } else if s.power.steps = 8 then go 3 else s
    | 3 => if o.pass then (s.modSec fun x => { x with idOk := true }).modMgt fun m => { m with stage := 4 } else go 12
    | 4 => if o.pass && s.sec.hasBundle then go 5 else s.bootRefused
    | 5 => if o.pass then s.phase5 else s.bootRefused
    | 6 => ((s.failTiles o.failed).modMgt fun m => { m with stage := 7 }).linkTrain
    | _ => ((s.modSec fun x => { x with kslots := 0x30000 }).modMgt fun m => { m with stage := 8, done7 := true }).tryReady
def execStartupPhaseDone (o : PhaseOutcome) (s : State) : Out := always (fun s => s.phaseDone o) s

/-- A trial boot not READY within 30 s (R463). -/
def State.trialTimeout (s : State) : State :=
  if s.sec.trial ∧ 1 ≤ s.mgt.stage ∧ s.mgt.stage ≤ 8 ∧ s.power.commit.isNone then (s.until (s.mgt.trialAt + 30 * secBclk)).fallbackReset else s
def execTrialBootTimeout (s : State) : Out := always State.trialTimeout s

/-- A cold start (R498, R499): everything but the always-on domain's clock, log and MRAM begins anew. -/
def State.coldStart (s : State) (cause : Nat) : State :=
  let pd := match s.power.mram with | some x => x.1 | none => 0
  let mj := s.power.energy.toNat
  let s := (s.blank true).modSec fun x => x.boot true
  s.modMgt fun m => { m with pastMj := m.pastMj + mj, stage := 1, cause, pdown := pd, done7 := false, done8 := false, warm := false, linkUp := false, starts := m.starts + 1, logRun := none, logRes := .ok,
                             telem := List.replicate 64 0, trialAt := s.now }

/-! ### Losing power (R424, R425, R429, R435, R491) -/

/-- Is a register key one of the MGT block, which VSTBY feeds (R494, R499)? -/
def mgtKey (k : Nat) : Bool := decide (16 * 2 ^ 28 + 0xB0000 ≤ k) && decide (k < 16 * 2 ^ 28 + 0xC0000)
/-- What losing every rail but VSTBY clears: the always-on PWR and MGT keep their values (R437, R494). -/
def State.darken (s : State) : State := let b := s.blank false; { b with regs := s.regs.filter fun x => pwrKey x.1 || mgtKey x.1 }.setStat .mgt (s.stat .mgt)
def railOff (s : State) : State := s.modPower fun p => { p with rails := Vector.ofFn fun r => decide (r.val = 0) && p.rails[r], steps := 0 }
/-- Steps 1 and 2 of R424: the Churn and everything it drives stop, the host link goes down, the MRAM area is written. Blocks lose what they held; PWR keeps its values. -/
def State.beginCommit (s : State) (c : CommitCause) : State :=
  let kind := match c with | .holdup => 1 | .rail _ => 2 | .trip _ => 3 | .fatal => 0
  let x := match c with | .rail r => r | .trip g => g | _ => 0
  let s := s.darken.modSec fun y => { y with kslots := 0, certs := Vector.replicate 16 none, cmd := none, ctx := Vector.replicate 17 SpdmCtx.reset }
  (s.modPower fun p => { p with commit := some c, mram := some (kind, p.distReg, p.distV, x),
                                rails := Vector.ofFn fun r => p.rails[r] && (decide (r.val = 0) || decide (5 ≤ r.val ∧ r.val ≤ 8) || decide (r.val = 18) || decide (r.val = 19)) }).modMgt fun m => { m with linkUp := false, logRun := none }
/-- The module is in standby: only VSTBY is on. -/
def State.standby (s : State) : State := (railOff s).modMgt fun m => { m with stage := 10, linkUp := false }
/-- Every rail but VSTBY goes off at once: the write buffer and the records since the last seal are lost (R429, R491, R500). -/
def State.cut (s : State) (mram : Option (Nat × Word × BitVec 16 × Nat)) (logToo : Bool) : State :=
  let s := (s.useFree.saveBuffer.modMem fun m => m.loseBuffer s.free).darken
  let s := s.modSec fun y => { y with kslots := 0, certs := Vector.replicate 16 none, cmd := none, ctx := Vector.replicate 17 SpdmCtx.reset }
  let s := (s.modPower fun p => { p with commit := none, mram := mram.orElse fun _ => p.mram }).standby
  if logToo then s.modMgt fun m => { m with unsealed := [] } else s

end Sys2Proof.Machine
end

