-- ==== Sys2Proof/Machine/Errors.lean ====
section
/-! DEFINITION. HBM errors, retirement, the device-fatal state and the record queue (R438–R449). -/
namespace Sys2Proof.Machine

/-- RAS_HBMCFG.CE_RETIRE; 0 acts as 1. -/
def State.ceRetire (s : State) : Nat := max 1 ((s.reg .ras 0x00C).toNat % 256)
/-- The key of the least-counted unit of a die pair. -/
def leastUnit (l : AMap Nat) : Option Nat :=
  match l with
  | [] => none
  | x :: xs => some (xs.foldl (fun (m : Nat × Nat) y => if y.2 < m.2 then y else m) x).1
/-- Count a corrected error of a unit; a full table of 1,024 units of its die pair gives up its least-counted unit (R445). -/
def Ras.countUnit (x : Ras) (g u : Nat) : Ras :=
  let k := unitKey g u
  if mapGet 0 x.counts k ≠ 0 then { x with counts := mapSet 0 x.counts k (mapGet 0 x.counts k + 1) }
  else
    let die := x.counts.filter fun y => groupDie (y.1 / 2 ^ 24) = groupDie g
    let l := if 1024 ≤ die.length then (match leastUnit die with | some v => mapDrop (fun k => decide (k = v)) x.counts | none => x.counts) else x.counts
    { x with counts := mapSet 0 l k 1 }

/-- A correctable error of an HBM unit (R439, R445). -/
def State.hbmCorrected (s : State) (g u : Nat) : State :=
  let s := s.corrected 0x01 (s.groupStall g) g 0
  let s := s.modRas fun x => x.countUnit g u
  if s.ceRetire < mapGet 0 s.ras.counts (unitKey g u) then s.retireUnit g u else s

/-- An uncorrectable error: the mark is written back to the block that lies at address `a` of a function's space, the error is recorded, the unit is retired. -/
def State.hbmUncorrected (s : State) (g u : Nat) (f : Fn) (a : Nat) : State :=
  let s := if (s.allocAt f a).isSome then s.markMem f (a / 64 * 64) else s
  (s.uncorrectable 0x01 (s.groupStall g) 1 g (s.free % 2 ^ 48)).retireUnit g u
def execHbmUncorrRead (g : Fin 80) (u : Nat) (f : Fn) (a : Nat) (s : State) : Out := ev (fun s => s.hbmUncorrected g.val u f a) s

/-- A patrol read of an HBM unit (R447). -/
def State.hbmPatrol (s : State) (g u : Nat) (f : Fn) (a : Nat) (res : EccResult) : State :=
  match res with
  | .clean => s
  | .corrected => s.hbmCorrected g u
  | .uncorrected => s.hbmUncorrected g u f a
def execHbmPatrolRead (g : Fin 80) (u : Nat) (f : Fn) (a : Nat) (res : EccResult) (s : State) : Out := ev (fun s => s.hbmPatrol g.val u f a res) s

/-- A device-fatal error (R444): reported and recorded; the Churn, every tile, engine and host request stop, the write buffer is programmed from the input, and only
PF0's GLB, RAS and MGT registers and the sideband answer. -/
def State.fatal (s : State) (src : BitVec 8) : State :=
  let s := (s.raise .ras 0x20).raise .glb 0x2
  let s := s.useFree.postRec (s.mkRec src 2 none 5 0 0)
  let b := s.blank false
  ({ b with regs := s.regs, status := s.status, counters := s.counters, ras := s.ras, mem := { b.mem with gret := s.mem.gret } } : State).modMgt (fun m => { m with stage := 11, logRun := none })
    |>.modPower fun p => { p with commit := some .fatal }
def execDeviceFatalError (src : BitVec 8) (s : State) : Out := ev (fun s => s.fatal src) s

/-- A transfer on a die-to-die ring link fails its CRC and is resent: the 16th failed resend in a row is device-fatal (Table 18.1). -/
def State.ringCrcFail (s : State) (l : Fin 8) : State :=
  let k := s.ras.resends[l]
  let s := (s.corrected 0x08 none (l.val / 2) 0).modRas fun x => { x with resends := x.resends.set l (k + 1) }
  if 16 ≤ k then s.fatal 0x08 else s
def execRingTransferCrcFail (link : Fin 8) (s : State) : Out := ev (fun s => s.ringCrcFail link) s

/-- RAS_REC_POP.POP: the oldest record is removed. -/
def execRasRecPop (s : State) : Out := evr (fun s => s.modRas fun x => { x with recs := x.recs.drop 1 }) s

end Sys2Proof.Machine
end

