-- ==== Sys2Proof/Machine/Rings.lean ====
section
/-! DEFINITION. Rings and doorbells: enabling, fetching and signalling (R401–R413). -/
namespace Sys2Proof.Machine

def State.sqSize (s : State) (f : Fn) (r : RingId) : Nat := 2 ^ ((s.ringReg f r 0x00).toNat / 2 ^ 8 % 16)
def State.cqSize (s : State) (f : Fn) (r : RingId) : Nat := 2 ^ ((s.ringReg f r 0x00).toNat / 2 ^ 12 % 16)
/-- The 64-bit value of a pair of ring registers. -/
def State.ringAddr (s : State) (f : Fn) (r : RingId) (o : Nat) : Nat := (s.ringReg f r o).toNat + (s.ringReg f r (o + 4)).toNat * 2 ^ 32

/-- While a Stall reset runs, writes to the VF's BAR0 are ignored (R497). -/
def State.barOpen (s : State) (f : Fn) : Bool :=
  match stallOf f with
  | some n => !(s.serving[n]).resetting
  | none => true

/-- RERR.CODE and RING_ERR of a doorbell out of range; the ring does not halt (R408). -/
def State.dbRange (s : State) (f : Fn) (r : RingId) : State := (s.modRing f r fun g => { g with code := 1 }).raiseRingErr f

/-- SQ_TAIL (R408): a disabled ring ignores it. -/
def State.sqTail (s : State) (f : Fn) (r : RingId) (v : Word) : State :=
  if !(s.ring f r).en || !s.barOpen f then s
  else if s.sqSize f r ≤ v.toNat then s.dbRange f r
  else s.modRing f r fun g => { g with sqTail := v.toNat }

/-- CQ_HEAD (R408): not beyond the last completion posted. -/
def State.cqHead (s : State) (f : Fn) (r : RingId) (v : Word) : State :=
  let g := s.ring f r
  let k := s.cqSize f r
  if !g.en || !s.barOpen f then s
  else if k ≤ v.toNat ∨ (g.cqTail + k - g.cqHead) % k < (v.toNat + k - g.cqHead) % k then s.dbRange f r
  else s.modRing f r fun g => { g with cqHead := v.toNat }

/-- Signalling conditions of R413: the oldest unsignalled completion has waited RIRQ.TIME µs. -/
def State.irqTimeDue (s : State) (f : Fn) (r : RingId) : Bool :=
  let t := (s.ringReg f r 0x20).toNat / 2 ^ 8 % 2 ^ 16
  (s.ringReg f r 0x04).getLsbD 1 && t ≠ 0 && (match (s.ring f r).unsig with | p :: _ => decide (p + t * usBclk ≤ s.now) | [] => false)
def State.signalNow (s : State) (f : Fn) (r : RingId) : State :=
  (s.modRing f r fun g => { g with unsig := [] }).signal f ((s.ringReg f r 0x00).toNat / 2 ^ 16 % 32)
/-- Signal the ring's vector if either condition holds. -/
def State.signalIf (s : State) (f : Fn) (r : RingId) : State := if s.irqTimeDue f r then s.signalNow f r else s.signalRing f r

/-- The checks of R409 before EN becomes 1. RCFG's exponents are four bits wide (log 50). -/
def State.ringOk (s : State) (f : Fn) (r : RingId) : Bool :=
  decide (16 ≤ s.sqSize f r) && decide (16 ≤ s.cqSize f r) && decide (s.ringAddr f r 0x08 % 4096 = 0) && decide (s.ringAddr f r 0x10 % 4096 = 0) &&
    decide (s.ringAddr f r 0x18 % 64 = 0)

/-- EN from 0 to 1 (R409). -/
def State.ringEnable (s : State) (f : Fn) (r : RingId) : State :=
  let g := s.ring f r
  if g.en then s
  else if !g.drained || !s.ringOk f r then s.modRing f r fun g => { g with code := 3 }
  else
    let s := s.modRing f r fun g => { Ring.reset with en := true, drained := false, nextOrd := g.nextOrd, unsig := g.unsig }
    s.send f (.shadow f r 0 0 0)

/-- EN to 0: fetching stops at once; DRAINED follows when every fetched descriptor has posted (R409). -/
def State.ringDisable (s : State) (f : Fn) (r : RingId) : State := s.modRing f r fun g => { g with en := false }
def State.ringDrained (s : State) (f : Fn) (r : RingId) : State :=
  s.modRing f r fun g => if !g.en && g.running.isEmpty && g.waiting.isEmpty then { g with drained := true } else g

/-- A write of RCTRL: IRQ_EN, then EN (R409, R413). -/
def State.writeRctrl (s : State) (f : Fn) (r : RingId) (v : Word) : State :=
  if !s.barOpen f then s
  else
    let s := s.setReg (ringBlock f) (ringOff f r 0x04) (v &&& 0x2)
    let s := if v.getLsbD 0 then s.ringEnable f r else if (s.ring f r).en then s.ringDisable f r else s
    s.signalIf f r

/-- A DISPATCH of the ring waits for room in its inbox: nothing later is fetched from the ring (R127). -/
def State.dispatchWaits (s : State) (f : Fn) (r : RingId) : Bool :=
  match stallOf f with
  | some n => (s.serving[n]).batches.any fun b => b.waiting && (match b.kind with
    | .dispatch t => (s.serving[n]).requests.any fun q => q.tag = t && q.dispatch && decide (q.cmd.r = r)
    | _ => false)
  | none => false

/-- May the ring's next descriptor be fetched (R63, R71, R127, R401, R403, R407, R409, R410, R412)? -/
def State.mayFetch (s : State) (f : Fn) (r : RingId) : Bool :=
  let g := s.ring f r
  let k := s.cqSize f r
  g.en && !g.halted && s.hostOpen f && decide (g.sqHead ≠ g.sqTail) && decide ((g.cqTail + k - g.cqHead) % k + g.running.length + g.waiting.length < k - 1) &&
    (match stallOf f with | some n => s.stallState n ≠ .freshening | none => true) && !s.dispatchWaits f r

/-- Fetch one descriptor: the head passes it, and it starts or waits behind a FENCE. -/
def State.fetchOne (s : State) (f : Fn) (r : RingId) (d : Desc) : State :=
  if s.mayFetch f r then
    let g := s.ring f r
    let s := s.modRing f r fun g => { g with sqHead := (g.sqHead + 1) % s.sqSize f r, nextOrd := g.nextOrd + 1 }
    (s.count (stallOf f) 0x090 128).offer { f, r, ord := g.nextOrd, d }
  else s

/-- A read turn fetches two consecutive descriptors when both lie in the ring without its wrap between them, otherwise one (R403). -/
def State.fetch (s : State) (f : Fn) (r : RingId) (ds : List Desc) : State :=
  let last := decide ((s.ring f r).sqHead + 1 = s.sqSize f r)
  match ds with
  | [] => s
  | d :: rest =>
    let s := s.fetchOne f r d
    match rest with
    | d2 :: _ => if last then s else s.fetchOne f r d2
    | [] => s

/-- A descriptor with its OPCODE. -/
def withOp (d : Desc) (op : Nat) : Desc := BitVec.ofNat 1024 (d.toNat / 2 ^ 16 * 2 ^ 16 + op)
/-- The command of a ring row: its descriptor, with the row's OPCODE, is fetched from the ring. -/
def ringCmd (op : Nat) (f : Fn) (r : RingId) (d : Desc) (s : State) : Out := evs (fun s => s.fetchOne f r (withOp d op)) s

end Sys2Proof.Machine
end

