-- ==== Sys2Proof/Machine/HostLink.lean ====
section
/-! DEFINITION. The commands of the host link (ch. 16). -/
namespace Sys2Proof.Machine

def execSqTailDoorbell (f : Fn) (r : RingId) (v : BitVec 32) (s : State) : Out := evl (fun s => s.sqTail f r v) s
def execCqHeadDoorbell (f : Fn) (r : RingId) (v : BitVec 32) (s : State) : Out := evl (fun s => s.cqHead f r v) s
/-- A write of RCTRL with EN = 1. -/
def execRingEnable (f : Fn) (r : RingId) (v : BitVec 32) (s : State) : Out := evl (fun s => s.writeRctrl f r (v ||| 1)) s
/-- A write of RCTRL with EN = 0. -/
def execRingDisable (f : Fn) (r : RingId) (v : BitVec 32) (s : State) : Out := evl (fun s => s.writeRctrl f r (v &&& 0xFFFFFFFE)) s
def execRingDrained (f : Fn) (r : RingId) (s : State) : Out := ev (fun s => s.ringDrained f r) s
def execDescriptorFetch (f : Fn) (r : RingId) (ds : List Desc) (s : State) : Out := evls (fun s => s.fetch f r ds) s

/-- Bytes that the host answers reach the oldest MEM_HOST_IN, up to what it has asked for (R338, R403). -/
def State.hostData (s : State) (f : Fn) (bytes : List Byte) : State :=
  match s.host[f].copyIn? with
  | none => s
  | some c =>
    (s.modHost f fun h => h.modCopy c fun x => { x with buf := x.buf ++ bytes.take (c.asked - c.done - c.buf.length) }).pumpCopyIn f
def execHostReadData (f : Fn) (bytes : List (BitVec 8)) (s : State) : Out := evls (fun s => s.hostData f bytes) s

/-- A failed host read (R404, R412). -/
def State.hostError (s : State) (f : Fn) (src : HostReadSource) : State :=
  match src with
  | .ring r => if (s.ring f r).en then (s.modRing f r fun g => { g with halted := true, code := 2 }).raiseRingErr f else s
  | .copyIn => match s.host[f].copyIn? with
    | some c => (s.modHost f fun h => h.dropCopy c).finish c.cmd .hostErr (c.done % 2 ^ 32) (c.done / 2 ^ 32)
    | none => s
def execHostReadError (f : Fn) (src : HostReadSource) (s : State) : Out := evls (fun s => s.hostError f src) s

/-- RIRQ.TIME of the oldest unsignalled completion passes (R413). -/
def State.irqTimer (s : State) (f : Fn) (r : RingId) : State :=
  let t := (s.ringReg f r 0x20).toNat / 2 ^ 8 % 2 ^ 16
  match (s.ring f r).unsig with
  | p :: _ => if (s.ringReg f r 0x04).getLsbD 1 && t ≠ 0 then (s.until (p + t * usBclk)).signalNow f r else s
  | [] => s
def execIrqTimerExpiry (f : Fn) (r : RingId) (s : State) : Out := ev (fun s => s.irqTimer f r) s

/-- Software unmasks a vector: a message whose PBA bit is set is sent (R413). -/
def State.unmask (s : State) (f : Fn) (vec : Fin 32) : State :=
  let due := s.host[f].pba.getLsbD vec
  let s := s.modHost f fun h => { h with masked := h.masked &&& ~~~(BitVec.twoPow 32 vec), pba := h.pba &&& ~~~(BitVec.twoPow 32 vec) }
  if due then s.send f (.msix f vec) else s
def execMsixUnmask (f : Fn) (vec : Fin 32) (s : State) : Out := evl (fun s => s.unmask f vec) s

/-- Bus Master Enable becomes 1: what waited for it is sent, in order (R401), unless the function has no wheel turn yet (R403). -/
def State.busMaster (s : State) (f : Fn) : State :=
  let t := s.modHost f fun h => { h with bme := true }
  if t.hostOpen f then
    ({ (t.modHost f fun h => { h with held := [] }) with sent := s.sent ++ s.host[f].held } : State).count (stallOf f) 0x091 (s.host[f].held.map HostMsg.bytes).sum
  else t
def execBusMasterEnable (f : Fn) (s : State) : Out := evl (fun s => s.busMaster f) s

end Sys2Proof.Machine
end

