-- ==== Sys2Proof/Machine/Turns.lean ====
section
/-! DEFINITION. The turns of the wheel and of the Commons frame (R78–R82, R341, R381, R403). -/
namespace Sys2Proof.Machine

/-- A number for each resource, under which its turns since the frame began are kept. -/
def turnKey : WheelResource → Nat
  | .walkEngine d e => d.val * 32 + e.val
  | .gatherEngine d e => 128 + d.val * 32 + e.val
  | .textEngine d => 256 + d.val
  | .ringLink l up => 264 + l.val * 2 + (if up then 1 else 0)
  | .slice d => 272 + d.val
  | .flashChannel c => 288 + c.val
  | .host => 416

def turnFn : TurnOwner → Option Fn
  | .stall n => some (vfOf n)
  | .provider => some pf0
  | .noOne => none

/-- Has the walk dispatcher of a B-die something to do in a turn of the Stall: an entry to take, or a walk to start (R196)? -/
def State.dispatchReady (s : State) (n : StallId) (d : Die) : Bool :=
  let v := s.serving[n]
  match v.disps.find? fun y => y.die = d with
  | none => !(v.queue d 1).isEmpty
  | some y => s.srcRun && (match y.left, v.index? (Entry.field y.entry 6 2) with
    | i :: _, some x => (match x.shards[i]? with | some sh => (s.freeCtx n sh.die).isSome | none => false)
    | _, _ => false)
/-- One step of a sweep whose context is on the engine. -/
def State.sweepTurn (s : State) (n : StallId) (d : Die) (e : Nat) : Option State :=
  if !s.srcRun then none
  else (s.serving[n]).idxCmds.findSome? fun y => match y.run, (s.serving[n]).index? y.handle with
    | .sweep r, some x => (match x.shards[r.shard]?, r.ctx with
      | some sh, some k =>
        if sh.die = d ∧ k % 32 = e ∧ r.at_ < sh.sweepSteps then
          (let a := s.sweepStep n x sh r; some (a.1.modSrv n fun v => v.modIdxCmd y.cmd (.sweep a.2)))
        else none
      | _, _ => none)
    | _, _ => none
/-- A turn of a graph walk engine: the dispatcher of its B-die, where it has something to do and no turn yet to use (log 84); else one memory request of a walk in a context
of the engine, the walks in rotation, walks of code entries before insert walks; else one step of a sweep (R196, R197, R215). -/
def State.walkTurn (s : State) (n : StallId) (d : Die) (e : Nat) : Option State :=
  let ready := (s.serving[n]).walks.filter fun w => decide (w.die = d) && decide (w.ctx % 32 = e) && !w.flight && decide (w.req ≠ .finished) && w.held.isNone
  if s.dispatchReady n d && !(s.serving[n]).dispTurns.contains d then some (s.modSrv n fun v => { v with dispTurns := v.dispTurns ++ [d] })
  else match (ready.find? fun w => w.insert.isNone).orElse (fun _ => ready.head?) with
    | some w => some (s.modSrv n fun v => { (v.modWalk d w.ctx fun _ => none) with walks := (v.modWalk d w.ctx fun _ => none).walks ++ [{ w with flight := true }] })
    | none => s.sweepTurn n d e

/-- One row read or scatter-add of a gather engine; a split table asks for its remote parts with it (R240, R247). -/
def State.gatherTurn (s : State) (n : StallId) (d : Die) (e : Nat) : Option State :=
  match (s.serving[n]).reads.find? fun r => decide (r.die = d) && decide (r.engine = e) && !r.started with
    | some r =>
      match (s.serving[n]).table? r.table with
      | some t =>
        let s := s.seek (vfOf n) d (s.readRanges n t r) (s.readWrites n t r)
        some (if t.parts.isEmpty || r.from_.isSome then s.modSrv n fun v => v.modReads (fun x => x = r) fun x => { x with started := true } else s.startParts n r)
      | none => none
    | none => none

/-- One packet of an owner passes from its die's endpoint into the switch slice. -/
def State.sliceTurn (s : State) (owner : Nat) (d : Die) : Option State :=
  match mapGet [] s.fabric.epOut (epKey d owner) with
  | k :: rest =>
    let s := s.modFabric fun x => { x with epOut := mapSet [] x.epOut (epKey d owner) rest, inject := mapSet [] x.inject d.val (mapGet [] x.inject d.val ++ [k]) }
    some (s.countClass k.cls 0x080 k.bytes)
  | [] => none

/-! ### Flash channels (R64, R341, R356–R358) -/

/-- A tier change's page that came from flash has been read: the page is in its new placement, and the change goes on. -/
def State.landPage (s : State) (f : Fn) (a : Alloc) (m : TierMove) : State :=
  let x := a.base + m.done * 65536
  ((s.cleanLines f x (x + 65536)).dropLines fun k => decide (k / 1024 = memKey f x / 65536)).pageLanded f a m.done
/-- One NAND page that a function waits for is read on a channel. -/
def State.flashRead (s : State) (f : Fn) (c : Nat) : Option State :=
  (s.readPage f c).map fun t =>
    let whole := fun (a : Alloc) (m : TierMove) => !m.reads.isEmpty && ((t.mem.fns[f]).allocs.any fun b => b.base = a.base && b.move.any fun y => y.reads.isEmpty)
    ((s.mem.fns[f]).allocs.foldl (fun t a => match a.move with | some m => if whole a m then t.landPage f a m else t | none => t) t).pumpMoves f
/-- One NAND page of a function's share is programmed on a channel, of the sectors that `p` admits. -/
def State.flashProgram (s : State) (f : Fn) (c : Nat) (p : Nat → Bool) : Option State := if s.ftlPrograms then s.programPage f c p else none
/-- A block of a channel is collected, of those that `p` admits by their owner: when the translation layer collects, and which block, is its choice (log 3).
FTL_GC_PROG counts the four sectors of each NAND page that it programs (DESIGN CHOICE: also those that hold no valid data, log 99). -/
def State.collect (s : State) (who : Option StallId) (c : Nat) (p : Nat → Bool) : Option State :=
  let l := s.mem.flash.blocks.filterMap fun e => match e.2 with
    | some y => if blockChannel e.1 = c ∧ y.pages = blockPages ∧ p y.owner then some e.1 else none
    | none => none
  if s.ftlPrograms then (l[s.free % (l.length + 1)]?).map fun b =>
    let t := s.useFree.moveBlock b
    t.count who 0x310 ((t.mem.flash.nandW - s.mem.flash.nandW).toNat / 4096)
  else none

/-- A Stall's own flash turn: its reads, then its write-backs, then the collection of its image's blocks while it is FRESH (R341, R356). -/
def State.flashOwn (s : State) (n : StallId) (c : Nat) : Option State :=
  (s.flashRead (vfOf n) c).orElse fun _ => (s.flashProgram (vfOf n) c fun _ => true).orElse fun _ =>
    if s.fresh? n then s.collect (some n) c fun o => decide (o = (s.imageNamed n).1) else none

/-- The BCLK in which the freshening, drying or demotion of a Stall that now moves its flash data began. -/
def State.flashAge (s : State) (n : StallId) : Option Nat :=
  match (s.stalls[n]).step with
  | .loading => some (s.stalls[n]).since
  | .writingBack => some (s.stalls[n]).since
  | _ => if s.demoting n then some s.mem.provAt else none
/-- What the provider's flash turns serve beside the Stall's own: the freshening, drying or demotion that began first (R64, R351); of those that began in one BCLK, that
of the lower-numbered Stall (log 81). -/
def State.flashDuty (s : State) : Option StallId :=
  allStalls.foldl (fun m n => match s.flashAge n, m.bind s.flashAge with
    | some a, some b => if a < b then some n else m
    | some _, none => some n
    | none, _ => m) none
/-- Work of the duty that the provider's turns serve: image reads, write-backs of drying, or the sectors of the allocation under demotion. -/
def State.flashServe (s : State) (n : StallId) (c : Nat) : Option State :=
  let f := vfOf n
  match (s.stalls[n]).step with
  | .loading => s.flashRead f c
  | .writingBack => (s.flashRead f c).orElse fun _ => s.flashProgram f c fun _ => true
  | _ => s.flashProgram f c fun sec => (s.mem.fns[f]).allocs.any fun a => (a.move.any fun m => m.cmd.isNone) && a.holds (sec * 4096)
/-- A block of the channel whose data is to move does, and REFRESH follows a read-disturb or patrol move (R357, R358). -/
def State.flashMove (s : State) (c : Nat) : Option State :=
  if s.ftlPrograms then
    (s.mem.flash.moving.find? fun x => blockChannel x.1 = c).map fun x =>
      let s := s.moveBlock x.1
      if x.2 then (s.raise .ftl 0x2).count none 0x311 1 else s
  else none
/-- A provider flash turn: the oldest freshening, drying or demotion, then what is left over: PF0's own work, moves, and the collection of blocks whose image no fresh
Stall has (R64, R356–R358). -/
def State.flashProvider (s : State) (c : Nat) : Option State :=
  let inUse := fun (o : Nat) => allStalls.any fun n => decide (s.stallState n ≠ .dry) && decide ((s.imageNamed n).1 = o)
  (s.flashDuty.bind fun n => s.flashServe n c).orElse fun _ => (s.flashRead pf0 c).orElse fun _ => (s.flashProgram pf0 c fun _ => true).orElse fun _ =>
    (s.flashMove c).orElse fun _ => s.collect none c fun o => !inUse o
/-- One command of a flash channel; none starts while FTL_CTRL.RUN is 0 (R362). -/
def State.flashTurn (s : State) (c : Fin 128) (o : TurnOwner) : Option State :=
  if !s.ftlRuns then none
  else match o with
    | .stall n => s.flashOwn n c.val
    | .provider => s.flashProvider c.val
    | .noOne => none

/-! ### Ring links (R14) -/

/-- One transfer of up to 1,024 bytes of an owner on a directed ring link; a transfer that gets through ends a run of failed resends. -/
def State.linkTurn (s : State) (owner : Nat) (l : Die) (up : Bool) : Option State :=
  let k := ringKey (l, up) owner
  let w := mapGet 0 s.mem.ring k
  if w = 0 then none
  else some ((s.modMem fun m => { m with ring := mapSet 0 m.ring k (w - 1024) }).modRas fun x =>
    { x with resends := x.resends.set (l.val * 2 + (if up then 1 else 0)) 0 (by have := l.isLt; split <;> omega) })

/-! ### The host link -/

/-- A write request of MEM_HOST_OUT: up to 256 bytes, and nothing from the first poisoned block on (R338). None while they cannot be read. -/
def State.hostWrite (s : State) (f : Fn) (c : HostCopy) : Option State :=
  let k := min 256 (c.bytes - c.done)
  let a := c.dev + c.done
  if !s.ready f [(a, k)] [] then none
  else
    let bad := s.poisonedBlocks f a k
    let k' := match bad with | b :: _ => b - a | [] => k
    let s := s.noteReads f [(a, k)]
    let s := if k' = 0 then s else s.send f (.data f (c.host + c.done) (s.readMem f a k'))
    let done := c.done + k'
    some (if !bad.isEmpty then (s.modHost f fun h => h.dropCopy c).finish c.cmd .poison (done % 2 ^ 32) (done / 2 ^ 32)
      else if done = c.bytes then (s.modHost f fun h => h.dropCopy c).finish c.cmd .ok (done % 2 ^ 32) (done / 2 ^ 32)
      else s.modHost f fun h => h.modCopy c fun x => { x with done })
/-- What the next write request of a MEM_HOST_OUT waits for is asked. -/
def State.seekOut (s : State) (f : Fn) : State :=
  match s.host[f].copies.find? fun c => !c.into with
  | some c => s.seek f 0 [(c.dev + c.done, min 256 (c.bytes - c.done))] []
  | none => s

/-- The write of a host turn: the oldest message held, or else a piece of a MEM_HOST_OUT (R338, R403). -/
def State.hostPut (s : State) (f : Fn) : Option State :=
  match s.host[f].held with
  | m :: rest => some ((s.modHost f fun h => { h with held := rest }).sendNow f m)
  | [] => (s.host[f].copies.find? fun c => !c.into).bind fun c => s.hostWrite f c
/-- A host turn: one read request of up to 256 bytes and one write of up to 256 bytes (R403). A descriptor fetch is a command of its own. -/
def State.hostTurn (s : State) (f : Fn) : Option State :=
  if !s.host[f].bme then none
  else
    let rd := (s.host[f].copies.find? fun c => c.into && decide (c.asked < c.bytes)).map fun c =>
      let k := min 256 (c.bytes - c.asked)
      (s.modHost f fun h => h.modCopy c fun x => { x with asked := x.asked + k }).count (stallOf f) 0x090 k
    ((rd.getD s).hostPut f).orElse fun _ => rd

/-- What an owner does in its turn of a resource; none where it has nothing ready. -/
def State.useTurn (s : State) (o : TurnOwner) (r : WheelResource) : Option State :=
  match r, o with
  | .walkEngine d e, .stall n => s.walkTurn n d e.val
  | .gatherEngine d e, .stall n => s.gatherTurn n d e.val
  | .textEngine d, .stall n => if s.txtRun && !((s.serving[n]).readyJobs d (s.txtContexts n)).isEmpty then some (s.textStep n d) else none
  | .ringLink l up, .stall n => s.linkTurn n.val l up
  | .ringLink l up, .provider => s.linkTurn 16 l up
  | .slice d, .stall n => s.sliceTurn n.val d
  | .slice d, .provider => s.sliceTurn 16 d
  | .flashChannel c, o => s.flashTurn c o
  | .host, o => (turnFn o).bind s.hostTurn
  | _, _ => none

/-- A Stall's turn: its own work; before it works and after, only its image's way from or to flash (R64). -/
def State.stallTurn (s : State) (n : StallId) (r : WheelResource) : Option State :=
  if s.works n then s.useTurn (.stall n) r
  else match r with
    | .flashChannel c => if s.stallState n = .dry then none else s.flashTurn c (.stall n)
    | _ => none
/-- An idle turn spends the free value that found it idle, and asks for what a host copy waits for. -/
def State.idleTurn (s : State) (o : TurnOwner) : WheelResource → State
  | .flashChannel _ => s.useFree
  | .host => match turnFn o with | some f => s.seekOut f | none => s
  | _ => s
/-- A turn of a resource (R80). A turn whose owner has nothing ready passes idle and is lost (R82). -/
def State.wheelTurn (s : State) (r : WheelResource) : State :=
  let k := mapGet 0 s.churn.turns (turnKey r)
  let o := s.wheelOwner k
  let s := s.modChurn fun c => { c with turns := mapSet 0 c.turns (turnKey r) (k + 1) }
  match o with
  | .noOne => s
  | .provider => (s.useTurn o r).getD (s.idleTurn o r)
  | .stall n =>
    match s.stallTurn n r with
    | some t => t.count (some n) 0x0B0 1
    | none => (s.idleTurn o r).count (some n) 0x0B1 1
def execWheelTurn (r : WheelResource) (s : State) : Out := evs (fun s => s.wheelTurn r) s

/-- A Commons turn begins (R81): its owner is in the turn until the next; a frame cut short by a boundary ends there. -/
def State.commonsTurn (s : State) : State :=
  let t := s.churn.boundaryAt + s.churn.cturn * 256
  if s.halted || decide (s.boundaryDue ≤ t) then s
  else (s.until t).modChurn fun c => { c with cturn := c.cturn + 1, commons := turnFn (s.commonsOwner (c.cturn % 32)) }
def execCommonsTurn (s : State) : Out := evs State.commonsTurn s

end Sys2Proof.Machine
end

