-- ==== Sys2Proof/Machine/Gather.lean ====
section
/-! DEFINITION. The gather dispatcher, row reads and the ends of table commands (R237, R241–R261). -/
namespace Sys2Proof.Machine

/-! ### The dispatcher (R243, R244) -/

/-- A job for a fetch queue entry. -/
def State.newJob (s : State) (n : StallId) (d : Die) (e : QEntry) (version : Nat) (flags : BitVec 16) : GJob :=
  let k := if flags = 0 then 0 else Entry.field e.e 0x10 3
  { id := (s.serving[n]).nextJob, die := d, entry := e.e, version, took := s.now, next := k, done := k, reads := 0, hits := 0, rangeN := 0, fillN := 0, rmiss := 0, flags,
    ords := [], nord := 0, held := none }

/-- The version that an entry reads at: its batch's for a pinned one, else the current one; 0 for PASSAGE (R253, Table 10.5). -/
def Serving.fetchVersion (v : Serving) (e : QEntry) : Nat :=
  match v.table? (Entry.field e.e 5 1) with
  | some t => if t.passage then 0 else if Entry.field e.e 6 2 % 2 = 1 then e.note else t.version
  | none => 0

/-- The dispatcher of a B-die takes the Stall's oldest fetch entry once it has sent every index of the one before. An entry that fails the check is answered with
no data moved. -/
def State.takeFetch (s : State) (n : StallId) (d : Die) : State :=
  let v := s.serving[n]
  if !s.works n || s.halted || !s.gthRun || v.jobs.any (fun j => decide (j.die = d) && decide (j.next < j.count)) then s
  else match v.queue d 3 with
    | [] => s
    | e :: rest =>
      let s := s.modSrv n fun v => v.setQueue d 3 rest
      if (v.req? e.tag).isNone then s.count (some n) 0x03A 1
      else if e.poison then s.failReq n e.tag { status := .poison, stage := 5 }
      else
        let add := fun (s : State) (j : GJob) => s.modSrv n fun v => { v with jobs := v.jobs ++ [j], nextJob := v.nextJob + 1 }
        match s.fetchCheck n e.e with
        | .ok => add s (s.newJob n d e (v.fetchVersion e) 0)
        | .noTable => let j := s.newJob n d e 0 gfNoTable; (add s j).postGather n j (s.gatherEntry j) true
        | .badArg => let j := s.newJob n d e 0 gfBadArg; ((add s j).raise .gth 0x2).postGather n j (s.gatherEntry j) true
def execFetchEntryTake (n : StallId) (die : Die) (s : State) : Out := evs (fun s => s.takeFetch n die) s

/-- Indices in a 64-byte request of the index list. -/
def GJob.perLine (j : GJob) : Nat := if j.op = 2 then 8 else 16
/-- In a turn of the Stall the dispatcher reads 64 bytes of a job's index list and sends the indices to their engines, as far as the windows take them. -/
def State.readIndices (s : State) (n : StallId) (d : Die) (id : Nat) : State :=
  match (s.serving[n]).job? id with
  | some j =>
    if j.die ≠ d ∨ j.held.isSome ∨ j.count ≤ j.next ∨ s.works n = false ∨ s.halted then s
    else
      let line := [(Entry.field j.entry 8 6 + 64 * (j.next / j.perLine), min 64 ((j.count - j.next / j.perLine * j.perLine) * (64 / j.perLine)))]
      if s.ready (vfOf n) line [] then ((s.noteReads (vfOf n) line d).sendIndices n id (j.perLine - j.next % j.perLine)).jobCheck n id else s.seek (vfOf n) d line []
  | none => s
def execIndexListRead (n : StallId) (die : Die) (job : Nat) (s : State) : Out := evs (fun s => s.readIndices n die job) s

/-! ### Row reads (R240, R241, R247–R250) -/

/-- The first read of the window on a B-die that serves a job and meets `p`. -/
def Serving.readOf (v : Serving) (d : Die) (job : Nat) (p : GRead → Bool) : Option GRead :=
  v.reads.find? fun r => decide (r.die = d) && r.reqs.any (fun q => q.1 = job) && p r

/-- A part request that a gather engine has read: the row's bytes in responses of up to 256; one that holds a poisoned block answers POISON (R240, R379). -/
def State.answerPart (s : State) (d : Die) (k : Packet) (x : RowData) : State :=
  let n := partBytes k
  (List.range ((n + 255) / 256)).foldl (fun s i =>
    let first := partFirst k + 256 * i
    let len := min 256 (n - 256 * i)
    let bad := x.bad.any fun b => decide (b * 64 < first + len) && decide (first < b * 64 + 64)
    s.answerPacket d k (s.response k (if bad then 3 else 0) first ((x.bytes.drop first).take len) [])) s
/-- A part request takes its place in the window of the engine that serves its row at the version now in force (R240, R241); one whose map entry is poisoned, or names
no slot, answers POISON. None while that share is full, or the map entry cannot be read. -/
def State.askPart (s : State) (d : Die) (k : Packet) (t : Table) : Option State :=
  let n := k.dstStall
  let map := [(t.map + 16 * k.aux, 16)]
  let m := s.mapEntry (vfOf n) t k.aux
  let eng := (m.cur + t.handle) % 16
  let slot := m.slotAt t.version
  if !s.ready (vfOf n) map [] then none
  else if s.poisoned (vfOf n) (t.map + 16 * k.aux) 16 ∨ t.slots ≤ slot then
    some (((s.noteReads (vfOf n) map d).raise .gth 0x1).answerPart d k { bytes := List.replicate (partFirst k + partBytes k) 0, bad := List.range 256, len := 0, badOff := true, beyond := false })
  else if 256 ≤ (s.serving[n]).windowUsed t.die eng then none
  else
    some ((s.noteReads (vfOf n) map d).modSrv n fun v =>
      let r : GRead := { die := t.die, engine := eng, table := t.handle, key := slot, row := k.aux, scatter := false, owner := v.nextJob, reqs := [(v.nextJob, 0)], started := false,
                         missing := [], got := [], timedOut := false, adds := [], data := none, from_ := some (d, k), ver := t.version }
      { v.counted t.die eng t.handle slot with reads := v.reads ++ [r], nextJob := v.nextJob + 1 })

/-- A read that has all it waits for brings its bytes, and they are written for every attached request as far as their destinations can take them. -/
def State.readDone (s : State) (n : StallId) (d : Die) (job : Nat) : State :=
  match (s.serving[n]).readOf d job fun r => r.started && r.missing.isEmpty with
  | none => s
  | some r =>
    match (s.serving[n]).table? r.table, r.data with
    | some t, some x => s.finishRead n t r r x
    | some t, none =>
      let l := s.readRanges n t r
      let w := s.readWrites n t r
      if !s.ready (vfOf n) l w then s.seek (vfOf n) r.die l w
      else
        let b := s.bring n t r
        let x := b.2.data.getD ⟨[], [], 0, false, false⟩
        let s := b.1.finishRead n t r b.2 x
        (match r.from_ with | some q => s.answerPart q.1 q.2 x | none => s)
    | none, _ => s
def execRowReadDone (n : StallId) (die : Die) (job : Nat) (s : State) : Out := evs (fun s => s.readDone n die job) s

/-- GTH_REMOTE.TIMEOUT in BCLK. -/
def State.remoteLimit (s : State) : Nat := max 1 ((s.reg .gth 0x00C).toNat % 65536) * usBclk
/-- The transaction of a part that a read still waits for. -/
def TxnKind.partOf (r : GRead) : TxnKind → Option Nat
  | .part d tb row i _ => if d = r.die ∧ tb = r.table ∧ row = r.row ∧ r.missing.contains i then some i else none
  | _ => none
/-- The parts of a read whose time from their request is over are missing: they are written as zero (R241). -/
def State.partTimeout (s : State) (n : StallId) (d : Die) (job : Nat) : State :=
  match (s.serving[n]).readOf d job fun r => r.started && !r.missing.isEmpty with
  | none => s
  | some r =>
    let l := (s.txnsOf n).filter fun t => (t.kind.partOf r).isSome
    match l with
    | [] => s
    | t :: ts =>
      let s := s.until (ts.foldl (fun m x => min m x.since) t.since + s.remoteLimit)
      let gone := (l.filter fun x => decide (x.since + s.remoteLimit ≤ s.now)).filterMap fun x => x.kind.partOf r
      (s.modSrv n fun v => v.modReads (fun x => x = r) fun x => { x with missing := x.missing.filter fun i => !gone.contains i, timedOut := true }).raise .gth 0x8
def execRemotePartTimeout (n : StallId) (die : Die) (job : Nat) (s : State) : Out := ev (fun s => s.partTimeout n die job) s

/-! ### Table commands (R237, R255) -/

/-- The device writes the map of a new ROWS table; once it is whole, the table is registered. Of a map that memory holds back, more than one TABLE_MAP_WRITTEN may
come. -/
def State.mapWritten (s : State) (n : StallId) (h : Nat) : State :=
  let v := s.serving[n]
  match v.tblCmds.find? (fun y => y.handle = h && (match y.run with | .mapping _ => true | _ => false)), v.table? h with
  | some y, some t =>
    (match y.run with
     | .mapping put =>
       let r := s.writeMap n t (t.mapPieces - put) put
       if r.2 < t.mapPieces then r.1.modSrv n fun v => v.modTblCmd y.cmd (.mapping r.2)
       else (r.1.modSrv n fun v =>
         (v.modTable h fun t => { t with ready := true, free := (List.range (t.slots - t.rows)).map fun i => (i, t.rows + i) }).dropTblCmd y.cmd).finish y.cmd .ok h
     | _ => s)
  | _, _ => s
def execTableMapWritten (n : StallId) (h : Nat) (s : State) : Out := evs (fun s => s.mapWritten n h) s

/-- A waiting replacement starts once no read, queued pinned entry or pinned batch below CUR_VERSION remains (R255). -/
def execTblReplaceStart (n : StallId) (h : Nat) (s : State) : Out := evs (fun s => s.headTbl n h) s

/-- GTH_CTRL.RUN (R261). -/
def execGthCtrlRun (v : BitVec 32) (s : State) : Out := evls (fun s => s.setReg .gth 0x000 (v &&& 1)) s

end Sys2Proof.Machine
end

