-- ==== Sys2Proof/Machine/Fabric.lean ====
section
/-! DEFINITION. The optical fabric: training, flits, cells, forwarding, delivery, transactions, gates and Churn alignment (R363–R392). -/
namespace Sys2Proof.Machine

/-! ### Training (R364–R368) -/

/-- A port enters a training state. -/
def State.portEnter (s : State) (p : PortId) (st : PortState) : State := s.modPort p fun x => { x with st, stAt := s.now }
/-- The limit of a training state in BCLK (Table 15.2). -/
def PortState.limit : PortState → Nat
  | .laser => 2000 * usBclk | .align => 20000 * usBclk | .fec => 1000 * usBclk | .exchange => 10 * usBclk | _ => 0

def State.ownWidths (s : State) (p : PortId) : BitVec 3 := (s.reg (.fab p) 0x004).setWidth 3
/-- A failed width choice takes a port DOWN. -/
def State.portDown (s : State) (p : PortId) : State := s.portStop p .down

/-- FAB_CTRL.EN becomes 1: a DISABLED port begins to train, with every lane to be judged anew (R366, R367). -/
def State.portEnable (s : State) (p : PortId) : State :=
  let s := s.setReg (.fab p) 0x000 1
  if (s.port p).st = .disabled then
    let s := s.modPort p fun x => { x with faults := 0 }
    if s.lasersOk p then s.portEnter p .laser else s.portDown p
  else s
def execPortEnable (p : PortId) (s : State) : Out := evl (fun s => (s.portEnable p).relight) s
/-- FAB_CTRL.EN becomes 0. -/
def State.portDisable (s : State) (p : PortId) : State :=
  let s := s.setReg (.fab p) 0x000 0
  if (s.port p).st = .disabled then s else s.portStop p .disabled
def execPortDisable (p : PortId) (s : State) : Out := evl (fun s => (s.portDisable p).relight) s

/-- The sum of a port's receive shares; above 64 the port refuses EXCHANGE (Table 15.9). -/
def State.rxSum (s : State) (p : PortId) : Nat := ((List.range 17).map fun c => s.rxShare p c).sum
/-- EXCHANGE ends: the peer, its widths, faults and shares are known, and the widest usable width is chosen. -/
def State.exchange (s : State) (p : PortId) (x : TrainInfo) : State :=
  let faults := (s.port p).faults ||| x.faults
  let w := chooseWidth faults (s.ownWidths p &&& x.widths)
  let s := s.modPort p fun y => { y with faults, peer := some (x.peerMod, x.peerPort), peerWidths := x.widths, rtt := x.rtt }
  if w.1 = 0 ∨ 64 < s.rxSum p then s.portDown p
  else
    (s.modPort p fun y =>
      { y with st := .active, stAt := s.now, width := w.1, groups := w.2, txSeq := 0, replay := [], nakRun := 0, stream := [], rxLast := 0xFFF, rxHold := [], errs := [], nakDue := false, partial_ := [], owe := [],
               credit := (List.range 17).foldl (fun m c => mapSet 0 m c (shareUnits (x.shares.getD c 0))) [], pass := 0, last := none }).raise (.fab p) 0x1
/-- The TRAIN flit of EXCHANGE carries the module identifier, the port number and the widths allowed, in bytes 0 to 2 of its one slot (R366, log 83). -/
def State.trainFlit (s : State) (p : PortId) : Flit :=
  let b := toBytesLE 1 s.moduleId ++ toBytesLE 1 p.val ++ toBytesLE 1 (s.ownWidths p).toNat
  { fseq := 0, ack := 0xFFF, nak := false, kind := .train, crcls := 31, crcnt := 0, slots := [⟨BitVec.ofNat 256 (ofBytesLE b), false⟩] }
/-- A training state ends; one past its limit takes the port DOWN. -/
def State.trainDone (s : State) (p : PortId) (x : TrainInfo) : State :=
  if (s.port p).stAt + (s.port p).st.limit < s.now then (if (s.port p).st.limit = 0 then s else s.portDown p)
  else match (s.port p).st with
  | .laser => s.portEnter p .align
  | .align => s.portEnter p .fec
  | .fec =>
    let faults := (s.port p).faults ||| x.faults
    let s := s.modPort p fun y => { y with faults }
    if (chooseWidth faults (s.ownWidths p)).1 = 0 then s.portDown p
    else (s.portEnter p .exchange).modFabric fun y => { y with sent := y.sent ++ [(p, s.trainFlit p)] }
  | .exchange => s.exchange p x
  | _ => s
def execTrainStateDone (p : PortId) (x : TrainInfo) (s : State) : Out := ev (fun s => s.trainDone p x) s
/-- A training state passes its limit. -/
def PortState.training : PortState → Bool
  | .laser => true | .align => true | .fec => true | .exchange => true | _ => false
def execTrainStateTimeout (p : PortId) (s : State) : Out :=
  ev (fun s => if (s.port p).st.training then (s.until ((s.port p).stAt + (s.port p).st.limit)).portDown p else s) s
/-- A DOWN port trains again every 100 ms while EN stays 1 and its laser bank works (R365, R366). -/
def execPortRetrainTimer (p : PortId) (s : State) : Out :=
  ev (fun s => if (s.port p).st = .down ∧ s.portEn p ∧ s.lasersOk p then (s.until ((s.port p).stAt + 110000000)).portEnter p .laser else s) s

/-- Flits a port sends again, dealt to its active groups (R367, R370). -/
def regroup (groups : List Nat) (l : List SentFlit) : List SentFlit := l.map fun x => if groups.contains x.group then x else { x with group := groups.headD 0 }
def State.sendFlits (s : State) (p : PortId) (l : List SentFlit) : State := s.modFabric fun x => { x with sent := x.sent ++ l.map fun y => (p, y.flit) }
def satAdd32 (w : Word) : Word := if w = 0xFFFFFFFF then w else w + 1
/-- Lanes of an ACTIVE port are faulty: it narrows without loss, or goes DOWN (R367). -/
def State.laneFault (s : State) (p : PortId) (mask : BitVec 8) : State :=
  let x := s.port p
  if !x.active || (mask &&& ~~~x.faults) = 0 then s
  else
    let s := (s.modPort p fun y => { y with faults := y.faults ||| mask }).raise (.fab p) 0x8
    let s := s.count none 0x321 1
    let w := chooseWidth (x.faults ||| mask) (s.ownWidths p &&& x.peerWidths)
    if w.1 = 0 then s.portDown p
    else if w.2 = x.groups then s
    else
      let lost := x.replay.filter fun f => !w.2.contains f.group
      let s := s.modPort p fun y => { y with width := w.1, groups := w.2, replay := regroup w.2 y.replay }
      let s := if w.1 < x.width then s.raise (.fab p) 0x4 else s
      if lost.isEmpty then s
      else ((s.sendFlits p (regroup w.2 lost)).modPort p fun y => { y with replays := satAdd32 y.replays }).count none 0x320 1
def execLaneFault (p : PortId) (lane : Fin 8) (s : State) : Out := ev (fun s => s.laneFault p (BitVec.twoPow 8 lane.val)) s

/-- A laser bank fails: its four ports go DOWN at once (R365). -/
def State.laserFail (s : State) (e : Fin 8) : State :=
  let s := s.modFabric fun x => { x with laserOk := x.laserOk.set e false }
  let s := (List.range 4).foldl (fun s i => s.portDown (Fin.ofNat 32 (e.val * 4 + i))) s
  s.log 0x000A [BitVec.ofNat 8 e.val]
def execLaserBankFail (e : Fin 8) (s : State) : Out := ev (fun s => if s.fabric.laserOk[e] then (s.laserFail e).relight else s) s

/-! ### Flits (R369–R371) -/

/-- Drop the acknowledged flits from the replay buffer. -/
def ackReplay (ack : BitVec 12) (l : List SentFlit) : List SentFlit :=
  match l with
  | [] => []
  | x :: _ => let k := (ack - x.flit.fseq).toNat + 1; if k ≤ l.length then l.drop k else l
/-- A NAK: everything after ACK is sent again; eight in a row for one FSEQ make its group faulty. -/
def State.nak (s : State) (p : PortId) (want : BitVec 12) : State :=
  let x := s.port p
  let run := if x.nakRun ≠ 0 ∧ x.nakSeq = want then x.nakRun + 1 else 1
  let s := ((s.sendFlits p x.replay).modPort p fun y => { y with replays := satAdd32 y.replays, nakSeq := want, nakRun := if run = 8 then 0 else run }).count none 0x320 1
  if run = 8 then (match x.replay with | f :: _ => s.laneFault p (3 <<< (2 * f.group)) | [] => s) else s

/-- Credit owed for a packet that leaves the port's buffer. -/
def Port.release (x : Port) (k : Packet) : Port := { x with owe := mapSet 0 x.owe k.cls (mapGet 0 x.owe k.cls + k.units) }
/-- The packets that a flit completes: MARK packets are taken at once (R392), packets of no class are dropped, the others wait to be forwarded. -/
def Port.take (x : Port) (l : List Packet) : Port :=
  l.foldl (fun x k => if k.ty = 0x10 ∨ 16 < k.cls then (if 16 < k.cls then x else x.release k) else { x with inQ := x.inQ ++ [k] }) x

/-- The next flit in FSEQ order is taken into the stream, with the credit that it returns. -/
def Port.takeFlit (x : Port) (fl : Flit) : Port :=
  let all := x.partial_ ++ fl.slots
  let r := parseSlots (all.length + 1) all
  let credit := if fl.crcls.toNat < 17 then mapSet 0 x.credit fl.crcls.toNat (mapGet 0 x.credit fl.crcls.toNat + fl.crcnt.toNat) else x.credit
  ({ x with rxLast := fl.fseq, partial_ := r.2, credit } : Port).take r.1
/-- Flits held out of order follow as their turn comes. `fuel`: those held. -/
def Port.takeHeld (x : Port) : Nat → Port
  | 0 => x
  | k + 1 => match x.rxHold.find? fun fl => fl.fseq = x.rxLast + 1 with
    | some fl => (({ x with rxHold := x.rxHold.filter (· ≠ fl) } : Port).takeFlit fl).takeHeld k
    | none => x
/-- The receiver restores FSEQ order (R369): a flit ahead of it is held, and one that was taken before is not taken again. -/
def Port.accept (x : Port) (fl : Flit) : Port :=
  let ahead := (fl.fseq - x.rxLast - 1).toNat
  if ahead = 0 then (x.takeFlit fl).takeHeld x.rxHold.length
  else if ahead < 2048 ∧ !(x.rxHold.any fun y => y.fseq = fl.fseq) then { x with rxHold := x.rxHold ++ [fl] }
  else x
/-- The lane group on which the flits of a port bring a number: they are dealt to the active groups in ascending order (R369). -/
def Port.groupOf (x : Port) (fseq : BitVec 12) : Nat := x.groups.getD (fseq.toNat % max 1 x.groups.length) 0
/-- Uncorrectable codewords of a group in one interval of 1 ms (R367); intervals count from BCLK 0 (log 83). -/
def Port.countBad (x : Port) (g now bad : Nat) : Port :=
  let t := now / (1000 * usBclk)
  let had := match x.errs.find? fun e => e.1 = g && e.2.1 = t with | some e => e.2.2 | none => 0
  { x with errs := (x.errs.filter fun e => decide (e.1 ≠ g) && decide (e.2.1 = t)) ++ [(g, t, had + bad)] }
def Port.badOf (x : Port) (g now : Nat) : Nat := match x.errs.find? fun e => e.1 = g && e.2.1 = now / (1000 * usBclk) with | some e => e.2.2 | none => 0

/-- A flit arrives: `corr` corrected and `bad` uncorrectable codewords (R370). -/
def State.flitIn (s : State) (p : PortId) (fl : Flit) (corr bad : Nat) : State :=
  if !(s.port p).active then s
  else
    let s := s.modPort p fun x => { x with fecc := x.fecc + BitVec.ofNat 64 corr, fecu := x.fecu + BitVec.ofNat 64 bad }
    let s := if corr = 0 then s else s.corrected 0x09 none p.val 0
    if bad ≠ 0 then
      let g := (s.port p).groupOf fl.fseq
      let s := (s.modPort p fun x => ({ x with nakDue := true } : Port).countBad g s.now bad).uncorrectable 0x09 none 0 p.val 0
      if 16 < (s.port p).badOf g s.now then s.laneFault p (3 <<< (2 * g)) else s
    else
      let s := s.modPort p fun x => { x with replay := ackReplay fl.ack x.replay }
      let s := if fl.nak then s.nak p (fl.ack + 1) else s
      match fl.kind with
      | .data => s.modPort p fun x => x.accept fl
      | .mark => s.modPort p fun x => x.accept fl
      | _ => s
def execFlitReceive (p : PortId) (fl : Flit) (corr bad : Nat) (s : State) : Out := ev (fun s => s.flitIn p fl corr bad) s

/-- The class whose credit the next flit returns. -/
def Port.oweFirst (x : Port) : Option (Nat × Nat) := x.owe.head?.map fun y => (y.1, min 255 y.2)
/-- The header of the next flit, and the port after it. -/
def Port.flit (x : Port) (kind : FlitKind) (slots : List Slot) : Flit × Port :=
  let cr := x.oweFirst
  ({ fseq := x.txSeq, ack := x.rxLast, nak := x.nakDue, kind, crcls := match cr with | some c => BitVec.ofNat 5 c.1 | none => 31, crcnt := match cr with | some c => BitVec.ofNat 8 c.2 | none => 0, slots },
   { x with nakDue := false, owe := match cr with | some c => mapSet 0 x.owe c.1 (mapGet 0 x.owe c.1 - c.2) | none => x.owe })

/-- Send a flit when its 40 slots are full (R369). -/
def State.flushStream (s : State) (p : PortId) : State :=
  let x := s.port p
  if x.stream.length < 40 then s
  else
    let r := x.flit .data (x.stream.take 40)
    let f : SentFlit := { flit := r.1, group := x.groupOf x.txSeq }
    (s.modPort p fun _ => { r.2 with stream := x.stream.drop 40, txSeq := x.txSeq + 1, replay := x.replay ++ [f] }).sendFlits p [f]
/-- A full replay buffer: an IDLE flit, which is not numbered, is not sent again, and returns no credit (log 60). -/
def State.idleFlit (s : State) (p : PortId) : State :=
  let x := s.port p
  let fl : Flit := { fseq := x.txSeq, ack := x.rxLast, nak := x.nakDue, kind := .idle, crcls := 31, crcnt := 0, slots := [] }
  (s.modPort p fun x => { x with nakDue := false }).modFabric fun x => { x with sent := x.sent ++ [(p, fl)] }

/-! ### Cells (R384, R388, R390) -/

/-- The entry of a gate list that is in force ends after its DUR, or at the Churn boundary that cuts its cycle short (R389). -/
def State.gateEnd (s : State) (p : PortId) : Nat :=
  let due := (s.port p).gateAt + s.gateDur p (s.port p).gate
  if s.churn.running then min due s.boundaryDue else due
/-- Is a class open in a cell that starts now (R390)? -/
def State.gateOpen (s : State) (p : PortId) (c : Nat) : Bool :=
  if s.gateDur p 0 = 0 then true
  else (s.gateReg p (s.port p).gate).getLsbD c && decide (s.now + s.guardBclk p ≤ s.gateEnd p)

/-- The class of the next cell: the rotation round interleaves SHP_WEIGHT cells of each open class in ascending class order. -/
def State.nextCell (s : State) (p : PortId) : Option (Nat × Nat) :=
  let x := s.port p
  let open_ := (List.range 17).filter fun c => s.gateOpen p c
  let cand := fun (k : Nat) (lo : Option Nat) => open_.find? fun c => decide (k < s.weight p c) && (match lo with | some l => decide (l < c) | none => true)
  match cand x.pass x.last with
  | some c => some (x.pass, c)
  | none => match cand (x.pass + 1) none with
    | some c => some (x.pass + 1, c)
    | none => (cand 0 none).map fun c => (0, c)

/-- Whole packets of a class, in queue order, that fit the rest of the cell, the credit and the shaper's allowance. -/
def fillCell : Nat → Nat → Option Nat → List Packet → List Packet
  | _, _, _, [] => []
  | room, credit, tok, k :: ks =>
    if decide (k.plen + 1 ≤ room) && decide (k.units ≤ credit) && (match tok with | some t => decide (k.bytes * bucketUnit ≤ t) | none => true) then
      k :: fillCell (room - (k.plen + 1)) (credit - k.units) (tok.map fun t => t - k.bytes * bucketUnit) ks
    else []

/-- A cell starts: its class fills it, idle slots fill the rest; a cell without a class goes idle. While the replay buffer is full no cell starts. -/
def State.cell (s : State) (p : PortId) : State :=
  let x := s.port p
  if !x.active then s
  else if 2048 ≤ x.replay.length then s.idleFlit p
  else
    let s := s.modPort p Port.pushMarks
    let s := match s.nextCell p with
      | none => s.modPort p fun x => { x with stream := x.stream ++ List.replicate 9 idleSlot }
      | some (pass, c) =>
        let l := fillCell 9 (mapGet 0 x.credit c) (s.shaperTokens p c) (x.queue c)
        let slots := l.flatMap Packet.slots
        let left := (s.shaperTokens p c).map fun t => t - queueBytes l * bucketUnit
        s.modPort p fun x =>
          let x := x.setQueue c ((x.queue c).drop l.length)
          { x with pass, last := some c, stream := x.stream ++ slots ++ List.replicate (9 - slots.length) idleSlot,
                   credit := mapSet 0 x.credit c (mapGet 0 x.credit c - (l.map Packet.units).sum),
                   shp := match left with | some t => mapSet none x.shp c (some (t, s.now)) | none => x.shp }
    s.flushStream p
def execCellStart (p : PortId) (s : State) : Out := ev (fun s => s.cell p) s

/-! ### Forwarding (R372, R373, R375, R385, R386) -/

/-- The B-die that homes a packet's target: a pool block's unit, a table's DIEPAIR, or where a response's transaction waits. -/
def State.targetDie (s : State) (k : Packet) : Die :=
  let n := k.dstStall
  let f := vfOf n
  if k.response then (match (s.txnsOf n).find? fun t => t.tid = k.tid with | some t => txnDie t.kind | none => 0)
  else if k.cls = 16 then (match s.allocAt pf0 k.offset with | some a => a.homeDie k.offset | none => 0)
  else if k.ty = 4 then (match (s.serving[n]).table? k.target with | some t => t.die | none => 0)
  else match (s.mem.fns[f]).exports.find? fun e => e.num = k.target with
    | some e => (match (s.mem.fns[f]).allocs.find? fun a => a.base = e.base with
      | some a => a.homeDie (a.base + k.offset)
      | none => 0)
    | none => 0
def State.deliverTo (s : State) (k : Packet) : State :=
  let d := (s.targetDie k).val
  s.modFabric fun x => { x with epIn := mapSet [] x.epIn d (mapGet [] x.epIn d ++ [k]) }

/-- Where a packet stands: the first of its class in an input port's buffer, or among a die pair's own. -/
def State.sourcePacket (s : State) (src : PacketSource) (c : Nat) : Option Packet :=
  (match src with
   | .port p => (s.port p).inQ
   | .endpoint d => mapGet [] s.fabric.inject d.val).find? fun k => decide (k.cls = c)
/-- Remove the first packet of a class. -/
def dropClass (c : Nat) : List Packet → List Packet
  | [] => []
  | k :: ks => if k.cls = c then ks else k :: dropClass c ks
/-- The packet leaves its source; a port owes credit for it. -/
def State.leaveSource (s : State) (src : PacketSource) (k : Packet) : State :=
  match src with
  | .port p => s.modPort p fun x => ({ x with inQ := dropClass k.cls x.inQ } : Port).release k
  | .endpoint d => s.modFabric fun x => { x with inject := mapSet [] x.inject d.val (dropClass k.cls (mapGet [] x.inject d.val)) }

/-- Forward a packet to another module; none while it waits. `left`: the state in which the packet has left its source. -/
def State.forwardOut (s left : State) (k : Packet) (transit : Bool) : Option State :=
  match s.outPort k.dst with
  | none => some left.noRoute
  | some q =>
    match s.queueSay q k with
    | .wait => none
    | .dropYellow => some (left.yellowDrop q k)
    | .take => let t := left.modPort q fun x => x.push k; some (if transit then t.count none 0x322 1 else t)

/-- A request leaves a policer in its colour. A COLOUR field out of range, and TC[7], stay as they came: the endpoint answers BADREQ (R379). -/
def Packet.recolour (k : Packet) (col : Colour) : Packet :=
  let tc := k.field 1 1
  if k.response || decide (1 < tc / 32 % 4) then k else k.rewrite 1 1 (tc % 32 + (if col = .yellow then 32 else 0) + tc / 128 * 128)
/-- A slice moves a packet. A request that arrived on a port passes its policer when it moves. -/
def State.forward (s : State) (src : PacketSource) (c : Nat) : State :=
  match s.sourcePacket src c with
  | none => s
  | some k =>
    let own := decide (k.dst = s.moduleId)
    let left := s.leaveSource src k
    match src with
    | .endpoint _ => if own then left.deliverTo k else (s.forwardOut left k false).getD s
    | .port p =>
      if !own && decide (k.hops = 0) then left.raise .trf 0x2
      else
        let m := left.police p k
        let left := left.modPort p fun _ => m.2
        match m.1 with
        | .red => ((left.modPort p fun x => { x with red := mapSet 0 x.red c (satAdd16 (mapGet 0 x.red c)) }).raise .trf 0x4).countClass c 0x084 1
        | col =>
          let k' := k.recolour col
          if own then left.deliverTo k' else (s.forwardOut left (k'.rewrite 5 1 (k.hops - 1)) true).getD s
def execPacketForward (src : PacketSource) (cls : Fin 17) (s : State) : Out := ev (fun s => s.forward src cls.val) s

/-! ### Delivery (R377–R380) -/

/-- Is a field of a request out of range (Tables 15.5, 15.6)? -/
def Packet.bad (k : Packet) : Bool :=
  decide (1 < k.field 1 1 / 32) || decide (16 < k.cls) || decide (k.status ≠ 0) || decide (4095 < k.tid) || decide (k.field 0x18 4 ≠ 0) ||
    (match k.ty with
     | 1 => decide (k.nblk = 0 ∨ 4 < k.nblk ∨ k.plen ≠ 0 ∨ k.offset % 64 ≠ 0 ∨ 2 ^ 48 ≤ k.offset)
     | 2 => decide (k.nblk = 0 ∨ 4 < k.nblk ∨ k.plen ≠ 2 * k.nblk ∨ k.offset % 64 ≠ 0 ∨ 2 ^ 48 ≤ k.offset)
     | 3 => decide (k.plen ≠ 1 ∨ k.offset % 8 ≠ 0 ∨ 2 ^ 48 ≤ k.offset ∨ k.aux ≠ 0)
     | _ => decide (k.plen ≠ 0 ∨ k.offset / 2 ^ 15 % 2 ≠ 0 ∨ 2 ^ 31 ≤ k.offset ∨ 16384 ≤ k.offset % 2 ^ 15 ∨ k.offset / 2 ^ 16 = 0 ∨ 16384 < k.offset / 2 ^ 16))
/-- The address that a pool request reaches; none where no export of the Stall to the requester's module holds the range. -/
def State.exportAddr (s : State) (k : Packet) : Option Nat :=
  let m := s.mem.fns[vfOf k.dstStall]
  match m.exports.find? fun e => decide (e.num = k.target) && decide (e.peer.toNat = k.src) with
  | some e => (match m.allocs.find? fun a => a.base = e.base with
    | some a => if k.offset + (if k.ty = 3 then 8 else 64 * k.nblk) ≤ a.units * unitBytes then some (a.base + k.offset) else none
    | none => none)
  | none => none
/-- The table that a part request names; none where it is not a ROWS table that holds the row and the bytes. -/
def State.partTable (s : State) (k : Packet) : Option Table :=
  match (s.serving[k.dstStall]).table? k.target with
  | some t => if !t.passage && t.ready && !t.retiring && decide (k.aux < t.rows) && decide (partFirst k + partBytes k ≤ t.rowBytes) then some t else none
  | none => none

/-- The address of the provider area that a class 16 request reaches: OFFSET is an address of PF0's (R383, log 59). -/
def State.providerAddr (s : State) (k : Packet) : Option Nat :=
  if k.ty ≠ 4 ∧ s.inAllocs pf0 (fun a => decide (a.tier = .hbm) && !a.commons) 4097 k.offset (if k.ty = 3 then 8 else 64 * k.nblk) then some k.offset else none
/-- The status with which a request is refused (R379). Class 16 needs no binding, and the provider is never DRY (R383). -/
def State.refusal (s : State) (k : Packet) : Option Nat :=
  let n := k.dstStall
  if k.bad then some 5
  else if k.cls = 16 then (if (s.providerAddr k).isNone then some 2 else none)
  else if s.boundStall n k.src ≠ some k.srcStall then some 1
  else if !s.fresh? n then some 4
  else if k.ty = 4 then (if (s.partTable k).isNone then some 2 else none)
  else if (s.exportAddr k).isNone then some 2 else none

/-- The space that a request reaches: the Stall's, or PF0's for class 16. -/
def Packet.fn (k : Packet) : Fn := if k.cls = 16 then pf0 else vfOf k.dstStall
/-- The address that a request reaches. -/
def State.poolAddr (s : State) (k : Packet) : Option Nat := if k.cls = 16 then s.providerAddr k else s.exportAddr k
def State.serveRead (s : State) (d : Die) (k : Packet) (a : Nat) : State :=
  let f := k.fn
  let marks := (List.range k.nblk).map fun i => s.poisoned f (a + 64 * i) 64
  let s := s.noteReads f [(a, 64 * k.nblk)] d
  s.answerPacket d k (s.response k (if marks.any id then 3 else 0) 0 (s.readMem f a (64 * k.nblk)) marks)
def State.serveWrite (s : State) (d : Die) (k : Packet) (a : Nat) : State :=
  let f := k.fn
  let s := (List.range k.nblk).foldl (fun s i =>
    let s := s.writeMem f (a + 64 * i) ((k.pay.drop (64 * i)).take 64) d
    if k.marks.getD i false then s.markMem f (a + 64 * i) else s) s
  s.answerPacket d k (s.response k 0 0 [] [])
def State.serveAmo (s : State) (d : Die) (k : Packet) (a : Nat) : State :=
  let f := k.fn
  let s' := s.noteReads f [(a, 8)] d
  if s.poisoned f a 8 then s'.answerPacket d k (s.response k 3 0 (List.replicate 32 0) [])
  else
    let old := s.readNat f a 8
    (s'.writeNat f a 8 ((old + bytesField k.pay 0 8) % 2 ^ 64) d).answerPacket d k (s.response k 0 0 (toBytesLE 32 old) [])
/-- Perform a request, or refuse it. -/
def State.serve (s : State) (d : Die) (k : Packet) : State :=
  match s.refusal k with
  | some st => s.answerPacket d k (s.response k st 0 [] [])
  | none =>
    match k.ty, s.poolAddr k, s.partTable k with
    | 1, some a, _ => s.serveRead d k a
    | 2, some a, _ => s.serveWrite d k a
    | 3, some a, _ => s.serveAmo d k a
    | _, _, _ => s

/-- The first packet delivered to a die that meets `p`, and the state without it. -/
def State.takeIn (s : State) (d : Die) (p : Packet → Bool) : Option (Packet × State) :=
  let l := mapGet [] s.fabric.epIn d.val
  match l.find? p with
  | some k => some (k, s.modFabric fun x => { x with epIn := mapSet [] x.epIn d.val (l.erase k) })
  | none => none
/-- The endpoint counts a packet and checks its ECRC (R377): none for a packet that is dropped. -/
def State.endpoint (s : State) (k : Packet) : State × Bool :=
  let s := s.countClass k.cls 0x081 k.bytes
  if k.ecrcOk then (s, true) else (s.count (if k.cls = 16 then none else some k.dstStall) 0x083 1, false)

/-- What a pool request reads and writes. -/
def State.serveRanges (s : State) (k : Packet) : List (Nat × Nat) × List (Nat × Nat) :=
  match s.poolAddr k with
  | some a => let l := [(a, if k.ty = 3 then 8 else 64 * k.nblk)]; if k.ty = 1 then (l, []) else ([], l)
  | none => ([], [])
/-- An endpoint takes a request: a part request goes to a gather engine; a pool request is performed once its Stall's memory lets it. A packet of no type of Table 15.6
is dropped. -/
def State.deliver (s0 : State) (d : Die) : State :=
  match s0.takeIn d fun k => !k.response with
  | none => s0
  | some (k, s) =>
    let r := s.endpoint k
    let l := s0.serveRanges k
    if !r.2 || decide (k.ty = 0) || decide (4 < k.ty) then r.1
    else if (s0.refusal k).isSome then r.1.serve d k
    else if k.ty = 4 then (match s0.partTable k with
      | some t => (r.1.askPart d k t).getD (s0.seek k.fn d [(t.map + 16 * k.aux, 16)] [])
      | none => r.1)
    else if s0.ready k.fn l.1 l.2 then r.1.serve d k else s0.seek k.fn d l.1 l.2
def execPacketDeliver (die : Die) (s : State) : Out := evs (fun s => s.deliver die) s

/-! ### Responses and timeouts (R380, R381) -/

/-- The bytes of a part as its responses give them, once they cover it. -/
def partWhole (want : Nat) (got : List (Nat × List Byte)) : Option (List Byte) :=
  let byte := fun (i : Nat) => got.findSome? fun x => if x.1 ≤ i then x.2[i - x.1]? else none
  (List.range want).mapM byte
def State.partSize (s : State) (n : StallId) (table part : Nat) : Nat :=
  match (s.serving[n]).table? table with
  | some t => (match t.parts[part]? with | some p => p.bytes | none => 0)
  | none => 0

/-- An OK answer to a transaction of the kind it answers. -/
def State.answered (s : State) (n : StallId) (t : Txn) (k : Packet) : State :=
  let f := vfOf n
  match t.kind, k.ty with
  | .read _ _ a _, 0x81 => (s.modMem fun m => m.write (memKey f a) k.pay).dropTxn n t.tid
  | .write _ _ _ _, 0x82 => s.dropTxn n t.tid
  | .amo u reg _ _, 0x83 => (s.modTile u fun tl => { tl with amoGot := tl.amoGot ++ [(reg, BitVec.ofNat 64 (bytesField k.pay 0 8))] }).dropTxn n t.tid
  | .fetch _ a blocks, 0x81 => ((s.modMem fun m => m.write (memKey f a) k.pay).modFnMem f fun m => m.land a blocks).dropTxn n t.tid
  | .put _ _ _ _, 0x82 => s.dropTxn n t.tid
  | .part die table row part got, 0x84 =>
    let want := s.partSize n table part
    let got := got ++ [(k.aux, k.pay.take (want - k.aux))]
    (match partWhole want got with
     | some b =>
       (s.dropTxn n t.tid).modSrv n fun v => v.modReads (fun r => r.die = die && r.table = table && r.row = row && r.missing.contains part) fun r =>
         { r with missing := r.missing.filter (· ≠ part), got := r.got ++ [(part, b)] }
     | none => s.setTxns n ((s.txnsOf n).map fun x => if x.tid = t.tid then { x with kind := .part die table row part got } else x))
  | _, _ => s
/-- Does a response come from the module that its transaction asked, and answer its kind? -/
def TxnKind.answerType : TxnKind → Nat
  | .read _ _ _ _ => 0x81 | .write _ _ _ _ => 0x82 | .amo _ _ _ _ => 0x83 | .fetch _ _ _ => 0x81 | .put _ _ _ _ => 0x82 | .part _ _ _ _ _ => 0x84

/-- An endpoint takes a response: its transaction ends, or it is discarded as late. -/
def State.respond (s : State) (d : Die) : State :=
  match s.takeIn d Packet.response with
  | none => s
  | some (k, s) =>
    let r := s.endpoint k
    let s := r.1
    let n := k.dstStall
    if !r.2 then s
    else match (s.txnsOf n).find? fun t => decide (t.tid = k.tid) && decide (t.kind.answerType = k.ty) with
      | none => s.modFabric fun x => { x with late := x.late.set n ((x.late[n]).filter (· ≠ k.tid)) }
      | some t => (if k.status = 0 then s.answered n t k else (s.dropTxn n t.tid).txnFail n t.kind).pumpTxns n
def execTransactionResponse (die : Die) (s : State) : Out := evs (fun s => s.respond die) s

/-- The timeout of a transaction in BCLK (R380). -/
def State.txnLimit (s : State) : TxnKind → Nat
  | .part _ _ _ _ _ => s.remoteLimit
  | _ => max 1 ((s.reg .trf 0x00C).toNat % 65536) * usBclk
/-- No answer came in time. -/
def State.txnTimeout (s : State) (n : StallId) (tid : Nat) : State :=
  match (s.txnsOf n).find? fun t => t.tid = tid with
  | none => s
  | some t =>
    let s := (s.until (t.since + s.txnLimit t.kind)).dropTxn n tid
    ((s.modFabric fun x => { x with late := x.late.set n (x.late[n] ++ [tid]) }).txnFail n t.kind).pumpTxns n
def execTransactionTimeout (n : StallId) (tid : Nat) (s : State) : Out := evs (fun s => s.txnTimeout n tid) s

/-! ### Gates and Churn alignment (R389, R392) -/

/-- The gate entry in force ends and the next begins; a cycle that a boundary cuts short ends there. -/
def State.gateAdvance (s : State) (p : PortId) : State :=
  let due := s.gateEnd p
  if s.gateDur p 0 = 0 ∨ (s.churn.running ∧ s.boundaryDue ≤ due) then s
  else (s.until due).modPort p fun x => { x with gate := s.gateNext p, gateAt := due }
def execGateEntryAdvance (p : PortId) (s : State) : Out := ev (fun s => s.gateAdvance p) s

def State.syncMode (s : State) : Nat := (s.reg .trf 0x010).toNat % 4
def State.syncPort (s : State) : Nat := (s.reg .trf 0x010).toNat / 2 ^ 8 % 32
/-- TOL in ns. -/
def State.syncTol (s : State) : Nat := (s.reg .trf 0x010).toNat / 2 ^ 16 % 256 * 10
/-- Of a MARK that arrives now, less half the round trip: how far it lies after the module's nearest boundary, in BCLK. -/
def State.markOffset (s : State) (rtt : Nat) : Int :=
  let t : Int := (s.now : Int) - (rtt * 11 / 20 : Nat)
  let a := t - s.churn.boundaryAt
  let b := t - s.boundaryDue
  if a.natAbs ≤ b.natAbs then a else b
/-- A MARK arrives on a port: its round trip is measured; a follower of that port moves its next boundary by the offset, by up to 1 µs. -/
def State.markIn (s : State) (p : PortId) (rtt : BitVec 20) : State :=
  if !(s.port p).active then s
  else
    let s := s.modPort p fun x => { x with rtt }
    if s.syncMode ≠ 2 ∨ s.syncPort ≠ p.val ∨ !s.churn.running then s
    else
      let o := s.markOffset rtt.toNat
      let ns := o * 10 / 11
      let s := s.modFabric fun x => { x with syncErr := BitVec.ofInt 16 (max (-32768) (min 32767 ns)), markAt := s.now }
      if s.syncTol < ns.natAbs then (s.modFabric fun x => { x with adjust := 0 }).raise .trf 0x10
      else s.modFabric fun x => { x with adjust := max (-1100) (min 1100 o) }
def execMarkReceive (p : PortId) (_num : BitVec 64) (rtt : BitVec 20) (s : State) : Out := ev (fun s => s.markIn p rtt) s
/-- When the MARK of the last boundary is expected: half a round trip after it. -/
def State.markDue (s : State) : Nat := s.churn.boundaryAt + (s.port (Fin.ofNat 32 s.syncPort)).rtt.toNat * 11 / 20
/-- No MARK within 1 µs of the expected time: a follower keeps its own time. -/
def State.markLost (s : State) : State :=
  let t := s.markDue
  if s.syncMode ≠ 2 ∨ !s.churn.running ∨ t ≤ s.fabric.markAt + usBclk then s
  else ((s.until (t + usBclk)).modFabric fun x => { x with adjust := 0, markAt := t + usBclk }).raise .trf 0x10
def execSyncMarkTimeout (s : State) : Out := ev State.markLost s

end Sys2Proof.Machine
end

