-- ==== Sys2Proof/Machine/Flash.lean ====
section
/-! DEFINITION. The flash translation layer's own moves (R356–R359, R362). -/
namespace Sys2Proof.Machine

/-- FTL_CTRL.RUN (R362): what waited for it may go on. -/
def execFtlCtrlRun (v : BitVec 32) (s : State) : Out := evls (fun s => s.setReg .ftl 0x000 (v &&& 1)) s

/-- The highest and the lowest erase count of the blocks in service of a die pair. -/
def FlashSt.pairMax (x : FlashSt) (d : Nat) : Nat := x.erases.foldl (fun m e => if e.1 / 2 ^ 20 = d ∧ !x.retired.contains e.1 then max m e.2 else m) 0
def FlashSt.pairMin (x : FlashSt) (d : Nat) : Nat :=
  let l := x.erases.filter fun e => decide (e.1 / 2 ^ 20 = d) && !x.retired.contains e.1
  if l.length + x.retired.countP (fun b => decide (b / 2 ^ 20 = d)) < 636000 then 0 else l.foldl (fun m e => min m e.2) 0xFFFFFFFF

/-- A block has FTL_RDCFG.LIMIT reads: its data is to move (R358). -/
def State.refreshBlock (s : State) (b : Nat) : State :=
  if s.blockOk b && decide ((s.reg .ftl 0x010).toNat % 2 ^ 24 ≤ mapGet 0 s.mem.flash.reads b) then s.askMove b true else s
def execReadDisturbRefresh (b : Nat) (s : State) : Out := ev (fun s => s.refreshBlock b) s

/-- The Stall, not DRY, whose image's data a block holds: the STALL of a record about it (R443). -/
def State.blockStall (s : State) (b : Nat) : Option StallId :=
  (s.mem.flash.block b).bind fun y => allStalls.find? fun n => decide (s.stallState n ≠ .dry) && decide ((s.imageNamed n).1 = y.owner)
/-- FTL_PATROL.DAYS in BCLK; 0 acts as 1. -/
def State.patrolGap (s : State) : Nat := max 1 ((s.reg .ftl 0x014).toNat % 256) * 86400 * secBclk
/-- A patrol read of a block that corrected `bits` bits: made every FTL_PATROL.DAYS, so DAYS after the last one of the block (R358). A corrected error is counted and
recorded (R439). While FTL_CTRL.RUN is 0 none starts (R362). -/
def State.flashPatrol (s : State) (b bits : Nat) : State :=
  if !s.blockOk b || !s.ftlRuns then s
  else
    let s := s.until (mapGet 0 s.mem.flash.patrols b + s.patrolGap)
    let s := s.modFlash fun x => { x with patrols := mapSet 0 x.patrols b s.now }
    let s := if bits = 0 then s else s.corrected 0x07 (s.blockStall b) (blockChannel b) 0
    if Config.patrolBits < bits then s.askMove b true else s
def execFlashPatrolRead (b bits : Nat) (s : State) : Out := ev (fun s => s.flashPatrol b bits) s

/-- Static wear levelling: the erase counts of the die pair lie further apart than FTL_WLCFG.DELTA, and the data of its coldest block, one of the lowest count, is to
move (R357). -/
def State.wearLevel (s : State) (b : Nat) : State :=
  let x := s.mem.flash
  let d := b / 2 ^ 20
  if s.blockOk b && decide ((s.reg .ftl 0x00C).toNat % 65536 < x.pairMax d - x.pairMin d) && decide (mapGet 0 x.erases b = x.pairMin d) then s.askMove b false else s
def execWearLevelMove (b : Nat) (s : State) : Out := ev (fun s => s.wearLevel b) s

/-- Spare blocks of a die pair (Table 14.5): 16 TB raw less 12 TB exposed, in blocks of 24 MiB, less those retired. -/
def FlashSt.spare (x : FlashSt) (d : Nat) : Nat := 158945 - x.retired.countP fun b => decide (b / 2 ^ 20 = d)
/-- 1 % of a die pair's blocks. -/
def spareFloor : Nat := 6360
def FlashSt.shortfall (x : FlashSt) : Nat := ((List.range 4).map fun d => (spareFloor - x.spare d) * 12).sum
/-- A block fails to program or erase: it is retired, its data moved, and a die pair short of spare blocks reports it (R359). -/
def State.blockFail (s : State) (b : Nat) : State :=
  if !s.blockOk b then s
  else
    let s := (s.moveBlock b).modFlash fun x => { x with retired := setInsert x.retired b }
    let s := (s.count none 0x312 1).log 8 (toBytesLE 4 b)
    let d := b / 2 ^ 20
    if s.mem.flash.spare d < spareFloor then
      let s := s.modFlash fun x => { x with short := x.shortfall }
      if s.mem.flash.low.contains d then s
      else ((s.modFlash fun x => { x with low := x.low ++ [d] }).raise .ftl 0x4).raise .mem 0x4
    else s
def execFlashBlockFail (b : Nat) (s : State) : Out := ev (fun s => s.blockFail b) s

end Sys2Proof.Machine
end

