-- ==== Sys2Proof/Machine/LoadStore.lean ====
section
/-! DEFINITION. Scalar loads and stores of the tile store (R90, Table 4.4). -/
namespace Sys2Proof.Machine

/-- A load of `n` bytes; alignment, range and poison fault (R90, Table 4.12, R441). -/
def loadOp (n : Nat) (signed : Bool) (w : DyWord) (t : Tile) : TStep :=
  let a := t.addrA w
  if t.busyS [w.d, w.a] then .hold
  else if a % n ≠ 0 then .fault .align 0
  else if !tsOk a n then .fault .tsRange 0
  else if t.marked a n then .fault .poison 0
  else
    let x := BitVec.ofNat (8 * n) (ofBytesLE (t.read a n))
    .go (t.setS w.d (if signed then x.signExtend 64 else x.setWidth 64))

/-- A store of the low `n` bytes of sB. -/
def storeOp (n : Nat) (w : DyWord) (t : Tile) : TStep :=
  let a := t.addrA w
  if t.busyS [w.a, w.b] then .hold
  else if a % n ≠ 0 then .fault .align 0
  else if !tsOk a n then .fault .tsRange 0
  else .go (t.write a (toBytesLE n (t.sreg w.b).toNat))

def execDyLdb (t : TileId) (w : DyWord) (s : State) : Out := dyRun 0x20 t w (loadOp 1 false w) s
def execDyLdh (t : TileId) (w : DyWord) (s : State) : Out := dyRun 0x21 t w (loadOp 2 false w) s
def execDyLdw (t : TileId) (w : DyWord) (s : State) : Out := dyRun 0x22 t w (loadOp 4 false w) s
def execDyLdd (t : TileId) (w : DyWord) (s : State) : Out := dyRun 0x23 t w (loadOp 8 false w) s
def execDyLdbs (t : TileId) (w : DyWord) (s : State) : Out := dyRun 0x24 t w (loadOp 1 true w) s
def execDyLdhs (t : TileId) (w : DyWord) (s : State) : Out := dyRun 0x25 t w (loadOp 2 true w) s
def execDyLdws (t : TileId) (w : DyWord) (s : State) : Out := dyRun 0x26 t w (loadOp 4 true w) s
def execDyStb (t : TileId) (w : DyWord) (s : State) : Out := dyRun 0x28 t w (storeOp 1 w) s
def execDySth (t : TileId) (w : DyWord) (s : State) : Out := dyRun 0x29 t w (storeOp 2 w) s
def execDyStw (t : TileId) (w : DyWord) (s : State) : Out := dyRun 0x2A t w (storeOp 4 w) s
def execDyStd (t : TileId) (w : DyWord) (s : State) : Out := dyRun 0x2B t w (storeOp 8 w) s

end Sys2Proof.Machine
end

