-- ==== Sys2Proof/Machine/Loader.lean ====
section
/-! DEFINITION. The end of a translation (R114–R116). -/
namespace Sys2Proof.Machine

/-- Translation of container `h` ends: its charge falls to the translation's actual size, which the spec does not state and which lies within the charge
(log 3); its kernels run, and the load completes with its handles. -/
def State.translated (s : State) (n : StallId) (h : Nat) : State :=
  match (s.serving[n]).loading.find? fun l => l.cont.id = h with
  | none => s
  | some l =>
    let cont := { l.cont with charge := s.free % (l.cont.charge + 1), step := stepping }
    let s := s.useFree.modSrv n fun v => { v with loading := v.loading.filter (fun x => x.cont.id ≠ h), keep := { v.keep with containers := v.keep.containers ++ [cont] } }
    (s.writeMem (vfOf n) (l.cmd.u 0x20 8) (handleBytes cont.kernels)).finish l.cmd .ok cont.kernels.length
def execTranslationDone (n : StallId) (h : Nat) (s : State) : Out := evs (fun s => s.translated n h) s

end Sys2Proof.Machine
end

