-- ==== Sys2Proof/Machine/Memory.lean ====
section
/-! DEFINITION. Memory as it goes on by itself: zero-fills, SYNC, tier changes, staging fills, demotions and images (R336–R352). -/
namespace Sys2Proof.Machine

/-- The zero-fill of a new HBM allocation ends, and MEM_ALLOC completes (R336). -/
def State.zeroFilled (s : State) (f : Fn) (a : Nat) : State :=
  match (s.mem.fns[f]).allocs.find? fun x => x.base = a with
  | some x =>
    (match x.zeroing with
     | some c => (s.modAllocAt f a fun y => { y with zeroing := none }).finish c .ok (addrResults a).1 (addrResults a).2
     | none => s)
  | none => s
def execAllocZeroFillDone (f : Fn) (a : Nat) (s : State) : Out := evs (fun s => s.zeroFilled f a) s

/-! ### Commit records (R342) -/

/-- What a commit record covers is on its way to flash already: its copies in the share are marked, and one that a later copy of its sector replaces is dropped. -/
def FnMem.commitSecs (m : FnMem) (inside : Nat → Bool) : FnMem :=
  let new := fun (c : Nat) => inside (c * 4096) && m.wbuf.contains (c, false)
  { m with wbuf := m.wbuf.filterMap fun x => if new x.1 then (if x.2 then none else some (x.1, true)) else some x }
/-- A commit record of a Stall's image: its allocation table as it stands, and for a range of whole sectors what was written back of it, with its places and its
marks. What was freed since the last record is released with it (R337, R342). -/
def State.commitRange (s : State) (n : StallId) (inside : Nat → Bool) : State :=
  let f := vfOf n
  let m := s.mem.fns[f]
  let id := s.imageNamed n
  let gone := fun (k : Nat) => m.gone.any fun g => decide (g.1 ≤ k) && decide (k < g.1 + g.2.1)
  let out := fun (k : Nat) => inside k || gone k
  (s.modImage id.1 id.2 fun i =>
    { i with allocs := committedAllocs m.allocs
             secs := (m.secs.filter fun x => inside (x.1 * 4096)).foldl (fun a x => mapSet 0 a x.1 x.2) (mapDrop (fun c => gone (c * 4096) || (inside (c * 4096) && mapGet 0 m.secs c = 0)) i.secs)
             cells := (m.back.filter fun x => inside x.1).foldl (fun c x => mapSet 0 c x.1 x.2) (mapDrop out i.cells)
             marks := (m.backMarks.filter fun b => inside (b * 64)).foldl setInsert (i.marks.filter fun b => !out (b * 64)) }).modFnMem f fun m =>
      { m.commitSecs inside with gone := [] }
/-- The sectors that a range of bytes meets. -/
def inSectors (lo hi : Nat) (x : Nat) : Bool := decide (lo / 4096 ≤ x / 4096) && decide (x / 4096 * 4096 < hi)

/-- Has every write of the Stall to pool blocks of a range been acknowledged (R344)? -/
def State.poolQuiet (s : State) (f : Fn) (lo hi : Nat) : Bool :=
  match stallOf f with
  | some n => !s.txnBusy n fun k => match k with
    | .write _ _ a b => decide (a < hi) && decide (lo < a + 64 * b)
    | .put _ a _ marks => decide (a < hi) && decide (lo < a + 64 * marks.length)
    | _ => false
  | none => true

/-- The commit record of a SYNC is in the write buffer, once every page of its range has been copied there (R344). `a` is the first address of its range. -/
def State.syncDone (s : State) (f : Fn) (a : Nat) : State :=
  match (s.mem.fns[f]).syncs.find? fun r => r.lo = a with
  | none => s
  | some r =>
    if !r.left.isEmpty || !s.copyRoom f 0 || !s.poolQuiet f r.lo r.hi then s
    else
      let s := match stallOf f with
        | some n => s.commitRange n (inSectors r.lo r.hi)
        | none => s
      (((s.modFnMem f fun m => { m with syncs := m.syncs.filter (· ≠ r) }).count (stallOf f) 0x077 1).finish r.cmd .ok).pumpFrees f
def execMemSyncDone (f : Fn) (a : Nat) (s : State) : Out := evs (fun s => s.syncDone f a) s

/-! ### Demotion (R350) -/

/-- DEMOTE_OK allocations in the order of R350. -/
def demoteBefore (a b : Alloc) : Bool := decide (a.lastUse < b.lastUse) || (decide (a.lastUse = b.lastUse) && decide (a.base ≤ b.base))
def insertAlloc (x : Alloc) : List Alloc → List Alloc
  | [] => [x]
  | y :: ys => if demoteBefore x y then x :: y :: ys else y :: insertAlloc x ys
def FnMem.candidates (m : FnMem) : List Nat :=
  ((m.allocs.filter fun a => a.demote && decide (a.tier = .hbm) && a.move.isNone && a.freeing.isNone && a.zeroing.isNone).foldr insertAlloc []).map (·.base)

/-- Begin the next change of a demotion, skipping allocations that the flash quota or the flash does not take; nothing once TARGET is reached. -/
def State.demoteNext (s : State) (n : StallId) (target freed : Nat) : Nat → List Nat → State
  | skipped, [] => s.modMem fun m => { m with prov := some (.demote n target freed skipped []) }
  | skipped, a :: rest =>
    let f := vfOf n
    if s.hbmUse n ≤ target then s.modMem fun m => { m with prov := some (.demote n target freed skipped []) }
    else match (s.mem.fns[f]).allocs.find? fun x => x.base = a && decide (x.tier = .hbm) && x.move.isNone && x.freeing.isNone with
      | none => s.demoteNext n target freed skipped rest
      | some x => match s.beginMove f x .flash 0 none with
        | some s => s.modMem fun m => { m with prov := some (.demote n target freed skipped rest) }
        | none => s.demoteNext n target freed (skipped + 1) rest

/-- MEM_PCMD DEMOTE: STALL in bits [11:8], TARGET from MEM_PARG. While a provider command runs it sets LAST_STATUS to BUSY. -/
def State.demote (s : State) (v : Word) : State :=
  let n : StallId := Fin.ofNat 16 (v.toNat / 2 ^ 8)
  if s.mem.prov.isSome then s.modMem fun m => { m with presStatus := .busy }
  else (s.modMem fun m => { m with provAt := s.now }).demoteNext n (s.reg .mem 0x00C).toNat 0 0 (s.mem.fns[vfOf n]).candidates
def execDemote (v : BitVec 32) (s : State) : Out := evl (fun s => s.demote v) s
/-- MEM_PCMD DEMOTE_ABORT, for the Stall whose demotion runs. -/
def State.demoteAbort (s : State) (v : Word) : State := if s.demoting (Fin.ofNat 16 (v.toNat / 2 ^ 8)) then s.stopDemote else s
def execDemoteAbort (v : BitVec 32) (s : State) : Out := evls (fun s => s.demoteAbort v) s

/-- A demotion that has reached TARGET, or has no candidate left, reports its result. -/
def State.demoteDone (s : State) : State :=
  match s.mem.prov with
  | some (.demote n target freed skipped left) =>
    if (s.mem.fns[vfOf n]).allocs.any (fun a => a.move.any fun x => x.cmd.isNone) || (!left.isEmpty && decide (target < s.hbmUse n)) then s
    else (s.modMem fun m => { m with pfreed := BitVec.ofNat 32 freed, presSkipped := BitVec.ofNat 16 skipped }).endProv .ok
  | _ => s
def execDemoteDone (s : State) : Out := ev State.demoteDone s

/-! ### Tier changes (R351) -/

/-- An allocation in its new tier. -/
def Alloc.moved (x : Alloc) (m : TierMove) : Alloc := { x with tier := m.dest, place := m.place, groups := m.groups, dirty := if m.dest = .hbm then x.dirty else [], move := none, upTo := 0 }
/-- What an allocation that is no longer on flash held there is given up: one in HBM without RETAIN keeps no backing copy. -/
def FnMem.leaveFlash (m : FnMem) (x : Alloc) : FnMem :=
  { m with secs := mapDrop (fun c => x.holds (c * 4096)) m.secs, wbuf := m.wbuf.filter fun c => !x.holds (c.1 * 4096), back := mapDrop x.holds m.back,
           backMarks := m.backMarks.filter fun b => !x.holds (b * 64) }

/-- The last page of a tier change has moved: the allocation is in its new tier, with its commit record (R351). -/
def State.tierDone (s : State) (f : Fn) (a : Nat) : State :=
  match (s.mem.fns[f]).allocs.find? fun x => x.base = a with
  | none => s
  | some x =>
    match x.move with
    | none => s
    | some m =>
      if m.done < x.pages || !s.copyRoom f 0 then s
      else
        let s := (s.modAllocAt f a fun x => x.moved m).modFnMem f fun y => { y with staged := y.staged.filter fun p => p.base ≠ a }
        let s := if m.dest = .hbm ∧ !x.retain then s.modFnMem f fun y => y.leaveFlash x else s
        let s := match stallOf f with
          | some n => s.commitRange n x.holds
          | none => s
        let s := match m.cmd, s.mem.prov with
          | some c, _ => s.finish c .ok
          | none, some (.demote n target freed skipped left) => s.demoteNext n target (freed + x.units) skipped left
          | none, _ => s
        s.pumpFrees f
def execTierChangeDone (f : Fn) (a : Nat) (s : State) : Out := evs (fun s => s.tierDone f a) s

/-! ### Staging (R340) -/

/-- A flash page has been read into its staging page: the writes that wait for it may land there. -/
def State.stagingFill (s : State) (f : Fn) (a page : Nat) : State :=
  let m := s.mem.fns[f]
  if (s.locsOf f (s.fillSecs f (a / 65536 + page))).any fun k => m.rdQ.contains k then s
  else s.modFnMem f fun m => { m with staged := m.staged.map fun y => if y.base = a ∧ y.page = page then { y with filling := false } else y }
def execStagingPageFill (f : Fn) (a page : Nat) (s : State) : Out := evs (fun s => s.stagingFill f a page) s

/-! ### Images (R352, R465) -/

/-- MEM_PIMG. -/
def State.pimg (s : State) : Nat × Nat :=
  let h := (s.reg .mem 0x010).toNat + (s.reg .mem 0x014).toNat * 2 ^ 32
  (h % 65536, h / 65536)

/-- MEM_PCMD IMG_CREATE. -/
def State.imgCreate (s : State) : State :=
  if s.mem.prov.isSome then s.modMem fun m => { m with presStatus := .busy } else s.modMem fun m => { m with prov := some .imgCreate }
def execImgCreate (s : State) : Out := evl State.imgCreate s

/-- MEM_PCMD IMG_DELETE: BUSY while a Stall that is not DRY names the image, KEY_FAIL where no image is named. -/
def State.imgDelete (s : State) : State :=
  let id := s.pimg
  let set := fun (c : Code) => s.modMem fun m => { m with presStatus := c }
  if s.mem.prov.isSome || allStalls.any fun n => decide (s.stallState n ≠ .dry) && decide (s.imageNamed n = id) then set .busy
  else if s.mem.images.any fun i => decide ((i.slot, i.gen) = id) then s.modMem fun m => { m with prov := some (.imgDelete id.1 id.2) }
  else set .keyFail
def execImgDelete (s : State) : Out := evl State.imgDelete s

/-- A new image: a slot and a generation of the device's choice, no earlier one of the slot, and a new key pair (log 3). -/
def State.makeImage (s : State) : State :=
  match s.pick (freeNumbers 65536 fun i => s.mem.images.any fun x => x.slot = i) with
  | none => s.endProv .quota
  | some slot =>
    let s := s.useFree
    let gen := (s.mem.nextGen + s.free % 65536) % 2 ^ 48
    let s := s.useFree
    let i : Image := { slot, gen, good := true, key := s.free, allocs := [], secs := [], cells := [], marks := [], keep := Retained.empty, saves := [], step := stepping }
    let s := s.useFree.modMem fun m => { m with images := m.images ++ [i], onFlash := m.onFlash ++ [i], nextGen := gen + 1 }
    let h := slot + gen * 65536
    (((s.setReg .mem 0x010 (BitVec.ofNat 32 h)).setReg .mem 0x014 (BitVec.ofNat 32 (h / 2 ^ 32)))).endProv .ok

/-- Every block of an image is released: erased, and free (R352). -/
def FlashSt.release (x : FlashSt) (slot : Nat) : FlashSt :=
  x.blocks.foldl (fun y e => match e.2 with | some b => if b.owner = slot then y.erase e.1 else y | none => y) x
/-- An IMG_CREATE or IMG_DELETE ends. -/
def State.provImageDone (s : State) : State :=
  match s.mem.prov with
  | some .imgCreate => s.makeImage
  | some (.imgDelete slot gen) =>
    let gone := fun (i : Image) => decide (i.slot = slot) && decide (i.gen = gen)
    (s.modMem fun m => { m with images := m.images.filter fun i => !gone i, onFlash := m.onFlash.filter fun i => !gone i, flash := m.flash.release slot }).wearCheck.endProv .ok
  | _ => s
def execProviderImageCommandDone (s : State) : Out := ev State.provImageDone s

end Sys2Proof.Machine
end

