-- ==== Sys2Proof/Machine/Power.lean ====
section
/-! DEFINITION. The power stage's events: the input, the bank, rails, excess power, ballast and temperatures (R418–R435, R489, R493, R499). -/
namespace Sys2Proof.Machine

/-- An event of the power stage, which works while the input or VSTBY feeds it. -/
def evp (f : State → State) (s : State) : Out := .next (let s := s.tick; if s.power.vstby || s.power.applied then f s else s)

/-! ### The input (Table 17.1) -/

/-- The PMBus bits of STATUS_INPUT (log 62): overvoltage, surge, sag, loss. -/
def pmOver : BitVec 8 := 0x80
def pmSurge : BitVec 8 := 0x40
def pmSag : BitVec 8 := 0x20
def pmLoss : BitVec 8 := 0x10
/-- PWR_DIST: KIND and a duration in µs. -/
def distWord (kind us : Nat) : Word := BitVec.ofNat 32 (kind * 2 ^ 28 + min 0xFFFFFFF us)
/-- A disturbance as PWR_DIST and PWR_DISTV show it. -/
def State.disturbed (s : State) (kind us : Nat) (v : BitVec 16) (pm : BitVec 8) : State :=
  s.modPower fun p => { p with distReg := distWord kind us, distV := v, pmInput := p.pmInput ||| pm }
/-- A condition of Table 17.1 needs an input that feeds the module. -/
def State.fed (s : State) : Bool := s.power.applied && !s.power.riding

/-- A dip lasts one sample and is counted only. -/
def execInputDip (x : Sample) (s : State) : Out :=
  evp (fun s => if s.fed then (s.modPower fun p => { p with dips := p.dips + 1 }).disturbed 1 1 x.vmin 0 else s) s
/-- A sag or a surge lasts two samples or more: how long is the input's own (log 3). -/
def State.swing (s : State) (kind : Nat) (v : BitVec 16) (bit : BitVec 24) (pm : BitVec 8) : State :=
  if s.fed then
    let us := 2 + s.free
    (((s.useFree.disturbed kind us v pm).modPower fun p => { p with rangeAt := some s.now }).raise .pwr bit).count none 0x302 1
  else s
def execInputSag (x : Sample) (s : State) : Out := evp (fun s => s.swing 2 x.vmin pwSag pmSag) s
def execInputSurge (x : Sample) (s : State) : Out := evp (fun s => s.swing 3 x.vmax pwSurge pmSurge) s

/-- The module has no power at all: VSTBY is out of regulation (R482, R506). Nothing but the flash and the log's sealed part stays. -/
def State.unpowered (s : State) : State :=
  let pos := s.posNow
  let s := s.cut s.power.mram false
  (s.modPower fun p => { p with applied := false, vstby := false, riding := false, rangeAt := none, powerReq := false, dist := none, rails := Vector.replicate 22 false }).modMgt
    fun m => { m with stage := 0, pos, posAt := s.now }

/-- The input is isolated (R423). Before READY every rail but VSTBY goes off without a commit (R500); else the bank carries the module. -/
def State.isolate (s : State) (kind : Nat) (v : BitVec 16) (bits : BitVec 24) (pm : BitVec 8) : State :=
  if s.fed then
    let s := (s.disturbed kind 2 v pm).modPower fun p => { p with riding := true, rangeAt := none, dist := some ⟨kind, s.now, v⟩ }
    let s := (s.raise .pwr bits).count none 0x302 1
    if !s.power.vstby then s.unpowered
    else if s.power.commit.isNone ∧ s.mgt.stage ≠ 9 ∧ s.mgt.stage ≠ 10 ∧ s.mgt.stage ≠ 11 then s.cut none false
    else s
  else s
def execInputLoss (x : Sample) (s : State) : Out := evp (fun s => s.isolate 4 x.vmin pwLoss pmLoss) s
def execInputOvervoltage (x : Sample) (s : State) : Out := evp (fun s => s.isolate 5 x.vmax (pwLoss ||| pwSurge) pmOver) s

/-- The duration of a loss so far in µs: the second sample below 38 V came 2 µs after the first (Table 17.6). -/
def State.lossUs (s : State) (back : Nat) : Nat := match s.power.dist with | some d => (s.now - d.since) / usBclk + 2 - back | none => 0
/-- The disturbance in progress, with its duration. -/
def State.noteLoss (s : State) (back : Nat) : State := match s.power.dist with
  | some d => s.modPower fun p => { p with distReg := distWord d.kind (s.lossUs back) }
  | none => s
/-- 100 samples in range reconnect the input (R418, R423). During a commit they power it (R425), and the MRAM area takes the disturbance's whole duration. -/
def State.inputReturn (s : State) (x : Sample) : State :=
  if s.power.riding then
    let s := s.noteLoss 100
    let s := s.modPower fun p => { p with riding := false, dist := none, rangeAt := some (s.now - 100 * usBclk), vin := x.vin, bankV := x.bankV,
                                          mram := p.mram.map fun m => if m.1 = 1 then (1, p.distReg, m.2.2.1, m.2.2.2) else m }
    if s.power.commit.isNone ∧ s.mgt.stage ≠ 10 then s.raise .pwr pwReturn else s
  else s
def execInputReturn (x : Sample) (s : State) : Out := evp (fun s => s.inputReturn x) s

/-- The bank reaches V_RES while it carries the module: the hold-up commit (R424). -/
def State.bankAtVres (s : State) (x : Sample) : State :=
  if s.power.riding ∧ s.power.commit.isNone ∧ (s.mgt.stage = 9 ∨ s.mgt.stage = 11) then
    ((s.noteLoss 0).modPower fun p => { p with bankV := x.bankV }).beginCommit .holdup
  else s
def execBankAtVres (x : Sample) (s : State) : Out := evp (fun s => s.bankAtVres x) s
/-- The write buffer is on flash. The module is in standby (R424), but stays fatal after the programming of R444. -/
def State.commitDone (s : State) : State :=
  match s.power.commit with
  | none => s
  | some c =>
    let s := (s.modMem fun m => { m with onFlash := m.images, fns := m.fns.map fun x => { x with wbuf := [] } }).modPower fun p => { p with commit := none }
    if c = .fatal then s else s.standby
def execHoldupCommitDone (x : Sample) (s : State) : Out := evp (fun s => (s.modPower fun p => { p with bankV := x.bankV }).commitDone) s

/-! ### The bank (R420–R422) -/

/-- A charge from below 60 V measures C, and with it V_RES, the buffer's cap and BANK_LOW. -/
def State.measureBank (s : State) (x : Sample) : State :=
  if 6000 ≤ s.power.bankV then s
  else
    let s := s.modPower fun p => { p with bankV := x.bankV, bankC := x.bankC, vres := BitVec.ofNat 16 (vresOf x.bankC.toNat), cap := capOf x.bankC.toNat }
    if bankEnergy x.bankC.toNat < 200000 + 216000 then s.raise .pwr pwBankLow else s
def execBankCapacitanceMeasure (x : Sample) (s : State) : Out := evp (fun s => s.measureBank x) s
/-- The charger brings the bank to V_RES: copies into the write buffer go on, and READY may be reached (R421, R498). -/
def State.recharged (s : State) (x : Sample) : State :=
  if x.bankV < s.power.vres then s
  else
    let s := s.modPower fun p => { p with bankV := x.bankV }
    if s.up then s.settle else if s.power.commit.isNone then s.tryReady else s
def execBankRechargedToVres (x : Sample) (s : State) : Out := evp (fun s => s.recharged x) s

/-! ### VSTBY, rails and the cold start (R419, R427–R429, R482, R498, R499, R507) -/

/-- The RTC of the newest log record (R482). -/
def Mgt.newest (m : Mgt) : BitVec 64 :=
  match m.unsealed.getLast? with
  | some r => r.rtc
  | none => match m.segments.getLast? with
    | some g => match (g.recs.filter fun r => decide (r.ty ≠ 0)).getLast? with | some r => r.rtc | none => 0
    | none => 0
/-- The input first exceeds 40 V: the cold start from no power. It finds that VSTBY was lost. -/
def State.inputApplied (s : State) (x : Sample) : State :=
  if s.mgt.stage ≠ 0 then s
  else
    let s := s.coldStart 0
    let s := s.modPower fun p => { p with applied := true, inrush := true, rangeAt := some s.now, vin := x.vin, bankV := x.bankV }
    (s.modMgt fun m => { m with rtc := m.newest, rtcAt := s.now, rtcUnset := true, posAt := s.now }).raise .mgt 0x2
def execInputApplied (x : Sample) (s : State) : Out := .next (s.tick.inputApplied x)

/-- VSTBY in regulation: the 10 A limit ends and the straps are sampled, once (R419, R507). -/
def State.vstbyUp (s : State) (x : Sample) : State :=
  if s.power.applied ∧ !s.power.vstby then
    s.useFree.modPower fun p => { p with vstby := true, inrush := false, strap := BitVec.ofNat 2 s.free, rails := p.rails.set 0 true, vin := x.vin, bankV := x.bankV }
  else s
def execVstbyRegulation (x : Sample) (s : State) : Out := evp (fun s => s.vstbyUp x) s
/-- VSTBY leaves regulation. -/
def State.vstbyLoss (s : State) : State := if s.power.vstby then s.unpowered else s
def execVstbyLoss (_x : Sample) (s : State) : Out := evp State.vstbyLoss s

/-- The step of R428 that turns a rail on; 0: VSTBY, which no step turns on. -/
def railStep (r : Nat) : Nat :=
  if r = 0 then 0 else if r < 5 then 5 else if r < 9 then 1 else if r = 9 then 2 else if r < 14 then 3 else if r < 18 then 4 else if r < 20 then 6 else if r = 20 then 7 else 8
/-- The rails of the step in progress have reached regulation. -/
def State.railStepDone (s : State) : State :=
  if s.mgt.stage = 2 ∧ !s.mgt.warm ∧ s.power.steps < 8 then
    s.modPower fun p => { p with steps := p.steps + 1, rails := Vector.ofFn fun r => p.rails[r] || decide (railStep r.val = p.steps + 1) }
  else s
def execRailStepDone (s : State) : Out := evp State.railStepDone s

/-- Is a rail on, or told to come up? -/
def State.railEnabled (s : State) (r : Fin 22) : Bool :=
  s.power.rails[r] || (decide (s.mgt.stage = 2) && !s.mgt.warm && decide (railStep r.val = s.power.steps + 1))
/-- The rails whose fault loses the write buffer. -/
def bufferRail (r : Nat) : Bool := (decide (5 ≤ r) && decide (r ≤ 8)) || decide (r = 18) || decide (r = 19)
/-- A rail fault (R429). In standby no rail but VSTBY is on, and nothing is left to commit. -/
def State.railFault (s : State) (r : Fin 22) : State :=
  if !s.railEnabled r then s
  else
    let s := s.modPower fun p => { p with pmRail := true }
    if bufferRail r.val then s.cut (some (2, s.power.distReg, s.power.distV, r.val)) true
    else if s.power.commit.isSome ∨ s.mgt.stage = 10 then s
    else s.beginCommit (.rail r.val)
def execRailFault (r : Fin 22) (s : State) : Out := evp (fun s => s.railFault r) s

/-- The conditions of R499 for a cold start from standby. -/
def State.mayStart (s : State) : Bool :=
  s.fed && (match s.power.rangeAt with | some t => decide (t + secBclk ≤ s.now) | none => false) && decide (4000 ≤ s.power.vin) && decide (s.power.vin ≤ 6000) &&
    decide (7200 ≤ s.power.bankV) && !s.anyWarn
/-- The module leaves standby with AUTO_ON, or on a POWER_ON that was accepted. -/
def State.standbyExit (s : State) (x : Sample) : State :=
  if s.mgt.stage ≠ 10 ∨ !((s.reg .mgt 0x008).getLsbD 0 || s.power.powerReq) then s
  else
    let s := s.sample x
    if s.mayStart then (s.coldStart 1).modPower fun p => { p with powerReq := false } else s
def execStandbyExit (x : Sample) (s : State) : Out := evp (fun s => s.standbyExit x) s
/-- The telemetry of standby, every 1 ms (R493). -/
def execStandbyTelemetryTimer (x : Sample) (s : State) : Out := evp (fun s => if s.mgt.stage = 10 then (s.sample x).telemeter else s) s

/-! ### Excess power and the ballast (R432–R434) -/

/-- A glide lowers CCLK, in steps of 25 MHz to 650 MHz at the lowest. Where it ends is the load's (log 3). -/
def State.glide (s : State) (x : Sample) : State :=
  let s := s.sample x
  let k := (s.clk - 650) / 25
  let f := if k = 0 then s.clk else 650 + 25 * (s.free % k)
  (s.useFree.setClock f).raise .pwr pwFast
def execPowerExcess (x : Sample) (s : State) : Out := ev (fun s => s.glide x) s

/-- A row's ballast is raised for its next slot; a slot that waited for it opens (R434). -/
def State.ballastUp (s : State) (r : RowId) : State := if s.churn.running then (s.modRow r fun x => { x with ballast := true }).openLate else s
def execBallastRaise (row : RowId) (s : State) : Out := evs (fun s => s.ballastUp row) s

/-- BCLK in which a row's 8 × 6.75 A × f / 1,300 MHz goes at a quarter of PWR_SLOPE.A_PER_US (R433). -/
def State.releaseBclk (s : State) : Nat := 54 * s.clk * 4 * usBclk / (1300 * clampTo 200 800 ((s.reg .pwr 0x008).toNat % 1024))
/-- Does the row's next slot begin within the release time? -/
def State.ballastKept (s : State) (r : RowId) : Bool :=
  s.churn.running &&
    (let live := s.liveNow
     match s.nextOnRow live r ((s.now - s.churn.boundaryAt) / usBclk) with
     | some i =>
       let t := s.churn.boundaryAt + (s.schedEntry i).start * usBclk
       decide ((if t < s.now then t + s.periodUs * usBclk else t) ≤ s.now + s.releaseBclk)
     | none => false)
/-- After a slot and its ramp-down, the ballast is released. -/
def State.ballastDown (s : State) (r : RowId) : State :=
  if (s.churn.rows[r]).slot.isSome || s.ballastKept r then s else s.modRow r fun x => { x with ballast := false }
def execBallastRelease (row : RowId) (s : State) : Out := ev (fun s => s.ballastDown row) s

/-! ### Temperatures (R435, R489) -/

/-- The first group at its TRIP value. -/
def Power.tripped (p : Power) : Option (Fin 54) := (List.finRange 54).find? fun g => decide ((tripOf g.val : Int) ≤ (p.temps[g]).toInt)
/-- A TRIP commits the write buffer and leads to standby; the log is sealed before (R490). -/
def State.thermTrip (s : State) (x : Sample) : State :=
  let s := s.sample x
  match s.power.tripped with
  | some g =>
    let s := (s.modPower fun p => { p with pmTemp := true }).log 7 ([2, BitVec.ofNat 8 g.val, s.power.temps[g]] : List Byte)
    if s.mgt.stage = 10 ∨ s.power.commit.isSome then s else s.seal.beginCommit (.trip g.val)
  | none => s
def execThermTrip (x : Sample) (s : State) : Out := evp (fun s => if s.power.vstby then s.thermTrip x else s) s

/-- The hottest C-die group falls below 45 °C after it exceeded 85 °C. -/
def State.thermalCycle (s : State) (x : Sample) : State :=
  let s := s.sample x
  let t := s.power.groupMax 0 4
  if s.power.hot ∧ t.toInt < 45 then
    ((s.modPower fun p => { p with hot := false }).modMgt fun m => { m with tcyc := m.tcyc + 1 }).log 7 ([3, 0, t] : List Byte)
  else s
def execThermalCycle (x : Sample) (s : State) : Out := evp (fun s => if s.power.vstby then s.thermalCycle x else s) s

end Sys2Proof.Machine
end

