-- ==== Sys2Proof/Machine/Security.lean ====
section
/-! DEFINITION. Firmware update, recovery, attestation and IDE (R415, R416, R456–R463, R471–R474). -/
namespace Sys2Proof.Machine

/-! ### Components and bundles (R457, Table 19.2) -/

/-- The bundle's bytes as one number: byte `i` of it is bits 8i+7 to 8i. -/
def digestBytes (d : BitVec 384) : List Byte := toBytesLE 48 d.toNat
/-- The Device Serial Number (R456). -/
def deviceSerial : List Byte := (digestBytes Config.pufIdentity).take 8

def compMagic : Nat := 0x57464A46
def compHeader : Nat := 1664
/-- REASON of a refusal: 1 ECDSA, 2 LMS, 3 root key, 4 SVN, 5 format, 6 DSN (Table 19.9). -/
abbrev CompCheck := Except Nat Component

/-- The fields of a header that Table 19.2 fixes, for the kind that stands at this place of the bundle. -/
def compFormed (b : List Byte) (kind : Nat) : Bool :=
  decide (compHeader ≤ b.length) && decide (bytesField b 0 4 = compMagic) && decide (bytesField b 4 2 = 1) && decide (bytesField b 6 2 = kind) &&
    decide (compHeader + bytesField b 8 4 ≤ b.length) && decide (bytesField b 0x0E 1 < 4) && decide (bytesField b 0x0F 1 < 4) &&
    (decide (kind = 4) || decide (bytesField b 0x18 8 = 0)) && bytesZero b 0x50 176 && bytesZero b 0x664 28 && (decide (kind ≠ 5) || decide (bytesField b 8 4 = 1))

/-- Verify the component at the start of `b` (R457). A REVOKE must leave its own keys unrevoked (R460). -/
def Sec.verify (x : Sec) (kind : Nat) (b : List Byte) : CompCheck :=
  if !compFormed b kind then .error 5
  else
    let body := (b.drop compHeader).take (bytesField b 8 4)
    let e := bytesField b 0x0E 1
    let l := bytesField b 0x0F 1
    let krev := if kind = 5 then x.krev ||| BitVec.ofNat 8 (bytesField body 0 1) else x.krev
    let epub := (b.drop 0x100).take 96
    let lpub := (b.drop 0x160).take 48
    let head := b.take 0x190
    let svn := bytesField b 0x0C 2
    if sha384 epub ≠ Config.rootHash 0 (Fin.ofNat 4 e) ∨ sha384 lpub ≠ Config.rootHash 1 (Fin.ofNat 4 l) ∨ krev.getLsbD e ∨ krev.getLsbD (4 + l) then .error 3
    else if sha384 body ≠ (b.drop 0x20).take 48 then .error 5
    else if !Config.sigOk 0 epub head ((b.drop 0x190).take 96) then .error 1
    else if !Config.sigOk 1 lpub head ((b.drop 0x1F0).take 1140) then .error 2
    else if 1 ≤ kind ∧ kind ≤ 4 ∧ svn < x.floors.toList.getD (kind - 1) 0 then .error 4
    else if kind = 4 ∧ (b.drop 0x18).take 8 ≠ deviceSerial then .error 6
    else .ok { kind, svn, version := bytesField b 0x10 8, digest := sha384 (b.take (compHeader + body.length)), body }

/-- Verify the components of a bundle in their order; a REVOKE may end it. -/
def Sec.verifyFrom (x : Sec) : List Nat → List Byte → Except Nat (List Component)
  | [], _ => .ok []
  | k :: ks, b =>
    if k = 5 ∧ b.length < compHeader then .ok []
    else match x.verify k b with
      | .error e => .error e
      | .ok c => match x.verifyFrom ks (b.drop ((compHeader + c.body.length + 4095) / 4096 * 4096)) with
        | .error e => .error e
        | .ok l => .ok (c :: l)
def bundleMax : Nat := 0x4000000
/-- Verify a bundle. -/
def Sec.verifyBundle (x : Sec) (b : List Byte) : Except Nat (List Component) := if b.isEmpty ∨ bundleMax < b.length then .error 5 else x.verifyFrom [1, 2, 3, 4, 5] b
/-- An accepted REVOKE sets its bits for good. -/
def Sec.revoke (x : Sec) (l : List Component) : Sec :=
  match l.find? fun c => c.kind = 5 with
  | some c => { x with krev := x.krev ||| BitVec.ofNat 8 (bytesField c.body 0 1) }
  | none => x
/-- A bundle goes into a slot. -/
def Sec.setSlot (x : Sec) (slot : Bool) (l : List Component) : Sec := if slot then { x with bundleB := l } else { x with bundleA := l }

/-! ### Key slots and memory encryption (R464–R467, Table 19.6) -/

/-- The key slot that encrypts a channel group: its Stall's, the Commons', or that of the reserved areas and the provider area. -/
def State.groupKey (s : State) (g : Nat) : Nat := if s.groupOwner g < 16 then s.groupOwner g else if s.groupOwner g = 0x10 then 16 else 17
/-- The tweak of a 64-byte HBM block at a 48-bit device physical address, and that of a 4 KiB flash sector (R466). -/
def hbmTweak (a : Nat) : BitVec 128 := BitVec.ofNat 128 (a % 2 ^ 48 + 0x01 * 2 ^ 120)
def flashTweak (sector gen slot : Nat) : BitVec 128 := BitVec.ofNat 128 (sector % 2 ^ 64 + gen % 2 ^ 48 * 2 ^ 64 + slot % 2 ^ 8 * 2 ^ 112 + 0x02 * 2 ^ 120)

/-! ### Firmware commands (R462, Table 19.5) -/

/-- A firmware command ends: SEC_FWRES and FW_DONE. -/
def State.fwEnd (s : State) (c : Code) (reason : Nat) : State := (s.modSec fun x => { x with result := c, reason }).raise .sec 0x1
def State.fwDisabled (s : State) : Bool := (s.reg .sec 0x008).getLsbD 1
/-- A command while another runs ends with BUSY. -/
def State.fwCmd (s : State) (f : State → State) : State := if s.sec.cmd.isSome then s.fwEnd .busy 0 else f s

/-- The bundle at an address, which must lie unpoisoned in PF0 allocations (log 63). -/
def State.fwBundle (s : State) (a n : Nat) : List Byte :=
  if s.covered pf0 a n && decide (n ≤ bundleMax) && !s.poisoned pf0 a n then s.readMem pf0 a n else []
/-- The place and length that SEC_FWADDR and SEC_FWBYTES name. -/
def State.fwPlace (s : State) : FwRun := ⟨(s.reg .sec 0x014).toNat + (s.reg .sec 0x018).toNat * 2 ^ 32, (s.reg .sec 0x01C).toNat % 2 ^ 27⟩
/-- STAGE begins; FW_STAGE_DONE verifies and reports. -/
def State.fwStage (s : State) : State :=
  s.fwCmd fun s =>
    if s.fwDisabled then s.fwEnd .cfgReject 0
    else s.modSec fun x => { x with cmd := some s.fwPlace }
def execFwStage (s : State) : Out := evl State.fwStage s
/-- What the verification of a bundle finds: the result, its REASON and the components. -/
def Sec.verdict (x : Sec) (b : List Byte) : Code × Nat × List Component :=
  match x.verifyBundle b with
  | .ok l => (.ok, 0, l)
  | .error e => (.keyFail, e, [])
/-- STAGE ends, once the bundle can be read (R81, R362): the slot not booted holds the bundle, or is empty. -/
def State.fwStageDone (s : State) : State :=
  match s.sec.cmd with
  | none => s
  | some r =>
    let here : Bool := s.covered pf0 r.addr r.bytes && decide (r.bytes ≤ bundleMax)
    if here && !s.canRead pf0 [(r.addr, r.bytes)] then s
    else
      let v := s.sec.verdict (s.fwBundle r.addr r.bytes)
      let slot := !s.sec.slot
      let good : Bool := decide (v.1 = .ok)
      let s := (if here then s.noteReads pf0 [(r.addr, r.bytes)] else s).modSec fun x =>
        let y := { (x.setSlot slot v.2.2).revoke v.2.2 with cmd := none, staged := good }
        if good then y else { y with trialNext := false, bootNext := if x.trialNext then x.slot else x.bootNext }
      (s.logFw 1 slot).fwEnd v.1 v.2.1
def execFwStageDone (s : State) : Out := ev State.fwStageDone s
def State.fwActivate (s : State) : State :=
  s.fwCmd fun s =>
    if s.fwDisabled then s.fwEnd .cfgReject 0
    else if !s.sec.staged then s.fwEnd .noStall 0
    else ((s.modSec fun x => { x with trialNext := true, bootNext := !x.slot }).logFw 2 (!s.sec.slot)).fwEnd .ok 0
def execFwActivate (s : State) : Out := evl State.fwActivate s
/-- COMMIT: the running slot is permanent, and the floors rise. -/
def State.fwCommit (s : State) : State :=
  s.fwCmd fun s =>
    if !s.sec.trial then s.fwEnd .noStall 0
    else
      let s := s.modSec fun x => { x with trial := false, bootNext := if x.trialNext then x.bootNext else x.slot, floors := Vector.ofFn fun i => max x.floors[i] (x.svn (i.val + 1)) }
      (s.logFw 3 s.sec.slot).fwEnd .ok 0
def execFwCommit (s : State) : Out := evl State.fwCommit s
def State.fwRevert (s : State) : State :=
  s.fwCmd fun s =>
    if !s.sec.trial then s.fwEnd .noStall 0
    else ((s.modSec fun x => { x with trial := false, trialNext := false, bootNext := !x.slot }).logFw 4 (!s.sec.slot)).fwEnd .ok 0
def execFwRevert (s : State) : Out := evl State.fwRevert s

/-! ### Recovery (R459) -/

/-- A message of the bundle, 64 bytes at most. The last one has the boot ROM verify it, write slot A and warm-reset; a refused bundle leaves nothing. The spec gives
this reset no CAUSE (log 3). -/
def State.recoverMsg (s : State) (m : RecoveryMessage) : State :=
  if s.mgt.stage ≠ 12 then s
  else
    let b := s.sec.recovery ++ m.bytes.take 64
    if !m.last then s.modSec fun x => { x with recovery := b }
    else match s.sec.verifyBundle b with
      | .error _ => s.modSec fun x => { x with recovery := [] }
      | .ok l =>
        let cause := s.free % 16
        let s := (s.useFree.blank false).modSec fun x => ({ (x.setSlot false l).revoke l with bootNext := false, trialNext := false } : Sec).boot false
        s.modMgt fun g => { g with stage := 2, cause, done7 := false, done8 := false, warm := true, linkUp := false, trialAt := s.now }
def execRecoveryMessage (m : RecoveryMessage) (s : State) : Out := always (fun s => s.recoverMsg m) s

/-! ### SPDM (R471–R474). Codes and framing are those of SPDM 1.3, which the spec names and does not print (log 64). -/

def State.spdm (s : State) (b : List Byte) : State := { s with answer := b }
def spdmErr (code : Nat) : List Byte := [0x7F, BitVec.ofNat 8 code]
def errInvalid : Nat := 1
def errBusy : Nat := 3
def errUnexpected : Nat := 4
def errUnsupported : Nat := 7
def errSession : Nat := 0x0A
def State.modCtx (s : State) (f : Fn) (g : SpdmCtx → SpdmCtx) : State := s.modSec fun x => { x with ctx := x.ctx.set f (g x.ctx[f]) }
/-- Does the mailbox speak SPDM (Table 19.4)? -/
def State.spdmOn (s : State) (f : Fn) : Bool := decide (f = pf0) || s.sec.cfg.spdmVf
/-- An SPDM request through a function's mailbox; one that the mailbox does not speak gets no answer. -/
def doe (f : Fn) (g : State → State) (s : State) : Out := evl (fun s => if s.spdmOn f then g s else s.spdm []) s
/-- A request that needs the algorithms agreed. -/
def State.agreed (s : State) (f : Fn) (g : State → State) : State := if (s.sec.ctx[f]).algs then g s else s.spdm (spdmErr errUnexpected)
/-- A request within an established session. -/
def State.inSession (s : State) (f : Fn) (g : State → State) : State := if (s.sec.ctx[f]).session = some true then g s else s.spdm (spdmErr errUnexpected)

/-- The Stall certificate of a FRESH Stall: its number, STL_LESSEE and CHN_NUM at its becoming FRESH, under the alias key (R472). -/
def State.stallCert (s : State) (n : StallId) : List Byte :=
  match s.sec.certs[n] with
  | some c => Config.sign 4 (s.sec.aliasCert ++ toBytesLE 1 n.val ++ toBytesLE 4 (s.reg (.stl n) 0x00C).toNat ++ toBytesLE 8 c.toNat)
  | none => []
/-- The chain of certificate slot 0: root, manufacturing CA and device certificate, the alias certificate, and a VF's Stall certificate. -/
def State.chain (s : State) (f : Fn) : List Byte :=
  Config.sign 3 (digestBytes Config.pufIdentity) ++ s.sec.aliasCert ++ (match stallOf f with | some n => s.stallCert n | none => [])
/-- PF0 signs with the alias key, VFn+1 with the Stall key. -/
def State.spdmSign (s : State) (f : Fn) (m : List Byte) : List Byte :=
  match stallOf f with
  | some n => Config.sign 5 (s.stallCert n ++ m)
  | none => s.sec.aliasSign m
/-- A VF whose Stall is not FRESH is busy (R472). -/
def State.spdmBusy (s : State) (f : Fn) : Bool := match stallOf f with | some n => !s.fresh? n | none => false
def State.whenFresh (s : State) (f : Fn) (g : State → State) : State := if s.spdmBusy f then s.spdm (spdmErr errBusy) else g s

def execSpdmGetVersion (f : Fn) (_q : SpdmReq) (s : State) : Out :=
  doe f (fun s => (s.modCtx f fun _ => { SpdmCtx.reset with version := true }).spdm [0x04, 0x13]) s
/-- Capability flags are open (log 3). -/
def execSpdmGetCapabilities (f : Fn) (_q : SpdmReq) (s : State) : Out :=
  doe f (fun s => if (s.sec.ctx[f]).version then (s.useFree.modCtx f fun c => { c with caps := true }).spdm (0x61 :: toBytesLE 4 s.free) else s.spdm (spdmErr errUnexpected)) s
/-- The one algorithm of each kind: ECDSA P-384, SHA-384, secp384r1, AES-256-GCM. -/
def execSpdmNegotiateAlgorithms (f : Fn) (_q : SpdmReq) (s : State) : Out :=
  doe f (fun s => if (s.sec.ctx[f]).caps then (s.modCtx f fun c => { c with algs := true }).spdm [0x63, 0x80, 0x02, 0x10, 0x02] else s.spdm (spdmErr errUnexpected)) s
/-- The digest of the chain; for a Stall that is not FRESH its value is open (log 3). -/
def execSpdmGetDigests (f : Fn) (_q : SpdmReq) (s : State) : Out :=
  doe f (fun s => s.agreed f fun s => if s.spdmBusy f then s.useFree.spdm (0x01 :: toBytesLE 48 s.free) else s.spdm (0x01 :: sha384 (s.chain f))) s
def execSpdmGetCertificate (f : Fn) (_q : SpdmReq) (s : State) : Out := doe f (fun s => s.agreed f fun s => s.whenFresh f fun s => s.spdm (0x02 :: s.chain f)) s
def execSpdmChallenge (f : Fn) (q : SpdmReq) (s : State) : Out :=
  doe f (fun s => s.agreed f fun s => s.whenFresh f fun s => s.spdm (0x03 :: sha384 (s.chain f) ++ s.spdmSign f (q.nonce ++ q.data))) s

/-! ### Measurements (Table 19.7) -/

def words (l : List Word) : List Byte := l.flatMap fun w => toBytesLE 4 w.toNat
def Sec.stateWord (x : Sec) : Word := BitVec.ofNat 32 x.word
def Sec.krevWord (x : Sec) : Word := x.krev.setWidth 32
def Sec.scrubWord (x : Sec) (n : StallId) : Word := (if (x.scrub[n]).1 then 0x80000000 else 0) ||| (x.scrub[n]).2.setWidth 32
/-- Bit i of word k: does `p` hold of 32 k + i? -/
def maskWords (k : Nat) (p : Nat → Bool) : List Word := (List.range k).map fun j => maskOf 32 fun i => p (32 * j + i)
/-- The schedule of a Stall: each entry's two words, and a last word of zero. -/
def State.measuredSched (s : State) (n : StallId) : List Word :=
  ((List.range 512).filter fun i => (s.schedEntry i).v && decide ((s.schedEntry i).stall = n)).flatMap (fun i =>
    let o := 0x2000 + s.bank * 0x1000 + i * 8
    [s.reg .chn o, s.reg .chn (o + 4)]) ++ [0]
def State.measured (s : State) (f : Fn) (i : Nat) : List Byte :=
  let x := s.sec
  match i, stallOf f with
  | 1, _ => digestBytes Config.romDigest
  | 2, _ => x.digest 1 ++ toBytesLE 2 (x.svn 1)
  | 3, _ => x.digest 2 ++ toBytesLE 2 (x.svn 2)
  | 4, _ => x.digest 3 ++ toBytesLE 2 (x.svn 3)
  | 5, _ => x.digest 4
  | 6, _ => words [s.reg .glb 0x008, s.reg .sec 0x008, x.krevWord, x.stateWord]
  | 7, some n => words [BitVec.ofNat 32 n.val, s.reg (.stl n) 0x00C, s.reg (.stl n) 0x020, s.reg (.stl n) 0x010, s.reg (.stl n) 0x014, x.scrubWord n]
  | 8, some n =>
    words (maskWords 3 (fun g => decide (g < 80) && decide (s.groupOwner g = n.val)) ++ ((List.range 4).map fun k => s.reg .mem (0x110 + 0x40 * n.val + 4 * k)) ++
      [s.reg (.stl n) 0x040, s.reg (.stl n) 0x044, s.reg (.stl n) 0x048, s.reg .trf (0x040 + 4 * n.val)] ++
      (List.range 16).map fun k => s.reg .trf (0x800 + 0x40 * n.val + 4 * k))
  | 9, some n =>
    words ([s.reg .chn 0x004] ++ s.measuredSched n ++ maskWords 2 (fun k => decide (s.wheelOwner k = .stall n)) ++ maskWords 1 (fun k => decide (s.commonsOwner k = .stall n)) ++
      [lo32 s.churn.num, hi32 s.churn.num])
  | _, _ => []
/-- A block with its index and size. -/
def State.measureBlock (s : State) (f : Fn) (i : Nat) : List Byte := let b := s.measured f i; BitVec.ofNat 8 i :: toBytesLE 2 b.length ++ b
/-- PF0 has blocks 1–6, a VF 1–9. -/
def blockCount (f : Fn) : Nat := if f = pf0 then 6 else 9
def State.measurements (s : State) (f : Fn) (q : SpdmReq) : State :=
  let i := q.index.toNat
  let l := if i = 0 then [] else if i = 0xFF then (List.range (blockCount f)).map (· + 1) else [i]
  if i ≠ 0xFF ∧ blockCount f < i then s.spdm (spdmErr errInvalid)
  else
    let b : List Byte := [0x60, BitVec.ofNat 8 (if i = 0 then blockCount f else l.length)] ++ l.flatMap fun k => s.measureBlock f k
    s.spdm (if q.sign then b ++ s.spdmSign f (q.nonce ++ b) else b)
def execSpdmGetMeasurements (f : Fn) (q : SpdmReq) (s : State) : Out := doe f (fun s => s.agreed f fun s => s.whenFresh f fun s => s.measurements f q) s

/-! ### Sessions -/

/-- A session in its handshake: exchange data are drawn afresh (log 3), and signed. -/
def State.keyExchange (s : State) (f : Fn) (q : SpdmReq) : State :=
  if (s.sec.ctx[f]).session.isSome then s.spdm (spdmErr errSession)
  else
    let b := toBytesLE 96 s.free
    (s.useFree.modCtx f fun c => { c with session := some false }).spdm (0x64 :: b ++ s.spdmSign f (q.data ++ b))
def execSpdmKeyExchange (f : Fn) (q : SpdmReq) (s : State) : Out := doe f (fun s => s.agreed f fun s => s.keyExchange f q) s
def State.finishSession (s : State) (f : Fn) : State :=
  if (s.sec.ctx[f]).session = some false then (s.modCtx f fun c => { c with session := some true }).spdm [0x65] else s.spdm (spdmErr errUnexpected)
def execSpdmFinish (f : Fn) (_q : SpdmReq) (s : State) : Out := doe f (fun s => s.finishSession f) s
def execSpdmKeyUpdate (f : Fn) (_q : SpdmReq) (s : State) : Out :=
  doe f (fun s => s.inSession f fun s => (s.modCtx f fun c => { c with updates := c.updates + 1 }).spdm [0x69]) s
def execSpdmHeartbeat (f : Fn) (_q : SpdmReq) (s : State) : Out := doe f (fun s => s.inSession f fun s => s.spdm [0x68]) s
def execSpdmEndSession (f : Fn) (_q : SpdmReq) (s : State) : Out :=
  doe f (fun s => s.inSession f fun s => (s.modCtx f fun c => { c with session := none, updates := 0 }).spdm [0x6C]) s
def execSpdmUnsupported (f : Fn) (_q : SpdmReq) (s : State) : Out := doe f (fun s => s.spdm (spdmErr errUnsupported)) s

/-! ### DOE discovery and IDE (R415, R416) -/

/-- Protocols of a mailbox: discovery, CMA/SPDM, secured CMA/SPDM; the answer names vendor, type and the next index, 0 after the last (log 64). -/
def State.discover (s : State) (f : Fn) (i : Nat) : State :=
  let k := if s.spdmOn f then 3 else 1
  s.spdm (if i < k then toBytesLE 2 1 ++ toBytesLE 1 i ++ toBytesLE 1 (if i + 1 < k then i + 1 else 0) else [0xFF, 0xFF, 0, 0])
def execDoeDiscovery (f : Fn) (i : BitVec 8) (s : State) : Out := evl (fun s => s.discover f i.toNat) s
/-- IDE_KM programs a stream's keys in a secure session of PF0's mailbox. -/
def execIdeKm (st : Fin 5) (key : Nat) (s : State) : Out :=
  doe pf0 (fun s => s.inSession pf0 fun s => s.modSec fun x => { x with streams := x.streams.set st ⟨true, some key⟩ }) s
/-- A secure stream whose integrity fails is insecure until it is programmed again. -/
def State.ideFail (s : State) (st : Fin 5) : State :=
  if (s.sec.streams[st]).secure then (s.modSec fun x => { x with streams := x.streams.set st ⟨false, none⟩ }).raise .sec 0x4 else s
def execIdeIntegrityFail (st : Fin 5) (s : State) : Out := evl (fun s => s.ideFail st) s

end Sys2Proof.Machine
end

