-- ==== Sys2Proof/Machine/Management.lean ====
section
/-! DEFINITION. The management controller: the sideband, the lifetime log and its timers, boundary scan (R460, R478–R494). -/
namespace Sys2Proof.Machine

/-! ### The sideband (R479, R480) -/

/-- MCTP answers while VSTBY is in regulation, but in recovery only the boot ROM does (R459). -/
def sband (f : State → State) (s : State) : Out := .next (let s := s.tick; if s.power.vstby && decide (s.mgt.stage ≠ 12) then f s else s)
/-- A completion code, 0 for success, and the response's bytes. -/
def State.reply (s : State) (code : Nat) (b : List Byte) : State := { s with answer := BitVec.ofNat 8 code :: b }

/-- GET_INFO: GLB_IDENT, Device Serial Number, MGT_BOOT, SEC_STATE, and the VERSION of each running component. -/
def execGetInfo (s : State) : Out :=
  sband (fun s => s.reply 0 (toBytesLE 4 glbIdent.toNat ++ deviceSerial ++ toBytesLE 4 s.bootWord ++ toBytesLE 4 s.sec.word ++ s.sec.running.flatMap fun c => toBytesLE 8 c.version)) s
def execReadTelem (s : State) : Out := sband (fun s => s.reply 0 (words s.mgt.telem)) s
/-- Up to 8 records from the head of the queue; refused in standby. -/
def execReadRecords (s : State) : Out := sband (fun s => if s.mgt.stage = 10 then s.reply 5 [] else s.reply 0 ((s.ras.recs.take 8).flatMap ErrRec.bytes)) s
/-- The sealed segments from a number on, with the certificates that verify them; refused in standby. -/
def State.segmentsFrom (s : State) (first n : Nat) : List Segment := s.mgt.segments.filter fun g => decide (first ≤ g.number) && decide (g.number < first + n)
def execReadLog (first : BitVec 32) (n : BitVec 16) (s : State) : Out :=
  sband (fun s => if s.mgt.stage = 10 then s.reply 5 [] else s.reply 0 ((s.segmentsFrom first.toNat n.toNat).flatMap Segment.bytes ++ s.mgt.aliases.flatMap id)) s
/-- POWER_ON: in standby with SB_POWER, the cold start begins once the conditions of R499 hold. -/
def State.powerOn (s : State) : State :=
  if s.mgt.stage = 10 ∧ (s.reg .mgt 0x008).getLsbD 2 then
    let s := if s.mayStart then s.coldStart 1 else s.modPower fun p => { p with powerReq := true }
    s.reply 0 []
  else s.reply 5 []
def execPowerOn (s : State) : Out := sband State.powerOn s
def execSidebandUnsupported (_op : BitVec 8) (s : State) : Out := sband (fun s => s.reply 4 []) s
/-- Set Endpoint ID: the null and the broadcast identifier are refused, as DSP0236 has it (log 64). -/
def execSetEndpointId (eid : BitVec 8) (s : State) : Out :=
  sband (fun s => if eid = 0 ∨ eid = 0xFF then s.reply 2 [] else (s.modMgt fun m => { m with eid }).reply 0 []) s

/-! ### Log commands (Table 20.9) -/

/-- A log command ends: MGT_LOGRES and LOG_DONE. -/
def State.logEnd (s : State) (c : Code) : State := (s.modMgt fun m => { m with logRes := c }).raise .mgt 0x8
def State.logAddr (s : State) : Nat := (s.reg .mgt 0x048).toNat + (s.reg .mgt 0x04C).toNat * 2 ^ 32
/-- READ of MGT_LOGN segments into a PF0 allocation; COUNT outside 1–4,096 ends as a READ that leaves the allocation does (log 65). -/
def State.logRead (s : State) : State :=
  let n := (s.reg .mgt 0x054).toNat % 8192
  if s.mgt.logRun.isSome then s.logEnd .busy
  else if n = 0 ∨ 4096 < n ∨ !s.inOne pf0 s.logAddr (n * 65536) then s.logEnd .badDesc
  else s.modMgt fun m => { m with logRun := some ⟨s.logAddr, (s.reg .mgt 0x050).toNat, n, 0⟩ }
def execLogcmdRead (s : State) : Out := evr State.logRead s
/-- Segments are copied to their places while their pages can be written (R340); the answer says whether all are. -/
def State.logCopy (s : State) (r : LogRun) : List Segment → State × Bool
  | [] => (s, true)
  | g :: gs =>
    let x := r.addr + (g.number - r.first) * 65536
    if s.ready pf0 [] [(x, 65536)] then
      ((s.writeMem pf0 x g.bytes).modMgt fun m => { m with logRun := some { r with past := g.number - r.first + 1 } }).logCopy { r with past := g.number - r.first + 1 } gs
    else (s, false)
/-- The copy goes on, and ends once each sealed segment asked for stands at its place; the place of one that is not kept is left as it was (log 65). -/
def State.logReadDone (s : State) : State :=
  match s.mgt.logRun with
  | none => s
  | some r =>
    if !s.inOne pf0 r.addr (r.n * 65536) then (s.modMgt fun m => { m with logRun := none }).logEnd .badDesc
    else
      let c := s.logCopy r (s.segmentsFrom (r.first + r.past) (r.n - r.past))
      if c.2 then (c.1.modMgt fun m => { m with logRun := none }).logEnd .ok else c.1
def execLogReadDone (s : State) : Out := .next (let s := s.tick; if decide (s.mgt.stage = 11) || s.up then s.logReadDone else s)
/-- SEAL: the segment is filled, sealed and signed. -/
def execLogcmdSeal (s : State) : Out := evr (fun s => s.seal.logEnd .ok) s

/-! ### Timers of power-on time (R488–R490) -/

/-- The management controller works while VSTBY is in regulation. -/
def evm (f : State → State) (s : State) : Out := .next (let s := s.tick; if s.power.vstby && decide (s.mgt.stage ≠ 12) then f s else s)
/-- Jump to a second of power-on time that has not passed (log 5). -/
def State.untilPos (s : State) (p : Nat) : State := s.until (s.mgt.posAt + (p - s.mgt.pos) * secBclk)

/-- Every 24 hours of power-on time since the last seal. -/
def State.sealTimer (s : State) : State :=
  let s := s.untilPos (s.mgt.sealedAt + 86400)
  s.seal.modMgt fun m => { m with sealedAt := s.posNow }
def execLogSealTimer (s : State) : Out := evm State.sealTimer s

/-- Input energy over the module's life in kWh. -/
def State.kwh (s : State) : Nat := (s.mgt.pastMj + s.power.energy.toNat) / 3600000000
def State.hourly (s : State) : State :=
  let s := (s.untilPos (s.mgt.hourlyAt + 3600)).relight
  let data := toBytesLE 4 (s.posNow / 3600) ++ toBytesLE 4 s.mgt.tcyc.toNat ++ toBytesLE 4 s.kwh ++ s.mgt.laserSum.toList.flatMap fun k => toBytesLE 3 (k / secBclk / 3600)
  (s.log 4 data).modMgt fun m => { m with hourlyAt := s.posNow }
def execHourlyRecordTimer (s : State) : Out := evm State.hourly s

/-- FTL_SPARE: free spare blocks over the device. -/
def FlashSt.spares (x : FlashSt) : Nat := ((List.range 4).map x.spare).sum
/-- Blocks of flash in a die pair (log 52), and the key of a block by its device-wide number. -/
def dieBlocks : Nat := 636000
def blockKey (b : Nat) : Nat := b / dieBlocks * 2 ^ 20 + b % dieBlocks
/-- FTL_EC: the highest and the lowest erase count of a block in service. -/
def FlashSt.maxEc (x : FlashSt) : Nat := x.erases.foldl (fun m e => if x.retired.contains e.1 then m else max m e.2) 0
def FlashSt.minEc (x : FlashSt) : Nat :=
  let l := x.erases.filter fun e => !x.retired.contains e.1
  if l.length + x.retired.length < 4 * dieBlocks then 0 else l.foldl (fun m e => min m e.2) 0xFFFF
def FlashSt.ecWord (x : FlashSt) : Word := BitVec.ofNat 32 (min 0xFFFF x.maxEc * 2 ^ 16 + min 0xFFFF x.minEc)
def State.daily (s : State) : State :=
  let s := s.untilPos (s.mgt.dailyAt + 86400)
  let x := s.mem.flash
  let data := toBytesLE 4 x.used ++ toBytesLE 8 x.hostW.toNat ++ toBytesLE 8 x.nandW.toNat ++ toBytesLE 4 x.ecWord.toNat ++ toBytesLE 4 x.spares
  (s.log 8 data).modMgt fun m => { m with dailyAt := s.posNow }
def execFlashDailyRecordTimer (s : State) : Out := evm State.daily s

/-- One WEAR_TABLE record: the first block's number and 18 erase counts. -/
def FlashSt.wearRow (x : FlashSt) (b : Nat) : List Byte :=
  toBytesLE 4 b ++ (List.range 18).flatMap fun i => toBytesLE 2 (min 0xFFFF (if b + i < 4 * dieBlocks then mapGet 0 x.erases (blockKey (b + i)) else 0))
/-- Every 30 days of power-on time, the wear of every block. -/
def State.wearTable (s : State) : State :=
  let s := s.untilPos (s.mgt.wearAt + 2592000)
  let x := s.mem.flash
  ((List.range ((4 * dieBlocks + 17) / 18)).foldl (fun s k => s.log 9 (x.wearRow (18 * k))) s).modMgt fun m => { m with wearAt := s.posNow }
def execWearTableTimer (s : State) : Out := evm State.wearTable s

/-- A segment that fails to program on one copy is written again there at the next free segment (R492). -/
def execLogProgramFail (s : State) : Out := evm (fun s => s.raise .mgt 0x4) s

/-! ### JTAG (R460) -/

/-- An instruction reaches the boundary-scan register, and nothing else, while BSCAN_EN is 1; what the register then holds is open (log 3). -/
def execBoundaryScanAccess (_ir : BitVec 8) (s : State) : Out :=
  evm (fun s => if (s.reg .sec 0x008).getLsbD 0 then { s.useFree with answer := toBytesLE 8 s.free } else { s with answer := [] }) s

end Sys2Proof.Machine
end

