-- ==== Sys2Proof/Machine/Pmbus.lean ====
section
/-! DEFINITION. PMBus on the sideband SMBus (R436, Table 17.4). -/
namespace Sys2Proof.Machine

/-- The 7-bit addresses of PMBus and of MCTP, from the straps as VSTBY found them (R436, R479, R507): bit 1 is PMB_A1. -/
def State.pmbusAddress (s : State) : Nat := 0x58 + s.power.strap.toNat
def State.mctpAddress (s : State) : Nat := 0x70 + s.power.strap.toNat
/-- PMBus answers while VSTBY is in regulation, but not in recovery, where only the boot ROM does (R459). -/
def pmb (f : State → State) (s : State) : Out := .next (let s := s.tick; if s.power.vstby && decide (s.mgt.stage ≠ 12) then f s else s)
def State.pmAnswer (s : State) (n v : Nat) : State := { s with answer := toBytesLE n v }
/-- A refused command answers nothing and sets CML. -/
def State.pmRefuse (s : State) : State := { s.modPower fun p => { p with cml := true } with answer := [] }

/-- PAGE: the input, or a rail of Table 17.2; another page is refused (log 62). -/
def execPmbusPage (b : BitVec 8) (s : State) : Out :=
  pmb (fun s => if b = 0xFF ∨ b < 22 then s.modPower fun p => { p with page := b } else s.pmRefuse) s
def execPmbusRefused (_b : BitVec 8) (s : State) : Out := pmb State.pmRefuse s
def execPmbusClearFaults (s : State) : Out := pmb (fun s => s.modPower fun p => { p with cml := false, pmRail := false, pmTemp := false, pmInput := 0 }) s
def execPmbusCapability (s : State) : Out := pmb (fun s => s.pmAnswer 1 0xB0) s
def execPmbusVoutMode (s : State) : Out := pmb (fun s => s.pmAnswer 1 0x14) s
def execPmbusRevision (s : State) : Out := pmb (fun s => s.pmAnswer 1 0x33) s

/-! The bits of STATUS_BYTE, STATUS_WORD and STATUS_INPUT are those of PMBus 1.3 (log 62). -/
def bit1 (b : Bool) (k : Nat) : Nat := if b then 2 ^ k else 0
/-- A temperature warning or trip that stands, or that has been since CLEAR_FAULTS. -/
def State.pmHot (s : State) : Bool := s.power.pmTemp || s.anyWarn
/-- STATUS_BYTE: input undervoltage fault, temperature, CML, and a rail fault, which has no bit of its own here. -/
def State.pmByte (s : State) : Nat := bit1 (s.power.pmInput.getLsbD 4) 3 + bit1 s.pmHot 2 + bit1 s.power.cml 1 + bit1 s.power.pmRail 0
/-- STATUS_WORD: output voltage and input in its high byte. -/
def State.pmWord (s : State) : Nat := s.pmByte + bit1 s.power.pmRail 15 + bit1 (decide (s.power.pmInput ≠ 0)) 13
def execPmbusStatusByte (s : State) : Out := pmb (fun s => s.pmAnswer 1 s.pmByte) s
def execPmbusStatusWord (s : State) : Out := pmb (fun s => s.pmAnswer 2 s.pmWord) s
def execPmbusStatusInput (s : State) : Out := pmb (fun s => s.pmAnswer 1 s.power.pmInput.toNat) s

/-- The LINEAR11 exponent for `num`/`den`: the least, from −16, whose mantissa has 10 bits; 31 steps at most. -/
def linSearch (num den : Nat) : Nat → Nat → Nat
  | 0, k => k
  | fuel + 1, k => if num * 2 ^ 16 / (den * 2 ^ k) < 1024 then k else linSearch num den fuel (k + 1)
/-- LINEAR11 of a magnitude and a sign: the mantissa is cut towards zero, its exponent the least that holds it (log 62). -/
def linear11 (neg : Bool) (num den : Nat) : Nat :=
  let k := linSearch num den 31 0
  let y := num * 2 ^ 16 / (den * 2 ^ k)
  (k + 16) % 32 * 2048 + (if neg then (2048 - y) % 2048 else y)
def State.pmLin (s : State) (num den : Nat) : State := s.pmAnswer 2 (linear11 false num den)
def State.pmTempOf (s : State) (g : Fin 54) : State :=
  let t := (s.power.temps[g]).toInt
  s.pmAnswer 2 (linear11 (decide (t < 0)) t.natAbs 1)
/-- The rail of PAGE; the input has no output voltage or current, and what these two read there is open (log 3). -/
def State.pmRailOf (s : State) (g : State → Fin 22 → State) : State :=
  if h : s.power.page.toNat < 22 then g s ⟨s.power.page.toNat, h⟩ else s.useFree.pmAnswer 2 s.free
def execPmbusReadVin (s : State) : Out := pmb (fun s => s.pmLin s.power.vin.toNat 100) s
def execPmbusReadIin (s : State) : Out := pmb (fun s => s.pmLin s.power.iin.toNat 100) s
def execPmbusReadPin (s : State) : Out := pmb (fun s => s.pmLin s.power.pinMs.toNat 1) s
/-- LINEAR16 with exponent −12. -/
def execPmbusReadVout (s : State) : Out := pmb (fun s => s.pmRailOf fun s r => s.pmAnswer 2 ((s.power.mv[r]).toNat * 4096 / 1000)) s
def execPmbusReadIout (s : State) : Out := pmb (fun s => s.pmRailOf fun s r => s.pmLin (s.power.amps[r]).toNat 10) s
def execPmbusReadTemperature1 (s : State) : Out := pmb (fun s => s.pmTempOf 52) s
def execPmbusReadTemperature2 (s : State) : Out := pmb (fun s => s.pmTempOf 53) s

end Sys2Proof.Machine
end

