-- ==== Sys2Proof/Machine/Queues.lean ====
section
/-! DEFINITION. The queue, spawn and ordering instructions of Table 4.11 (R102–R105, R128). -/
namespace Sys2Proof.Machine

/-! ### qpush -/

/-- What the device records with an entry that a kernel pushes: the current epoch of a code entry's index (R193); for a fetch entry the version its batch
reads its table at (R242, R253). -/
def State.pushNote (s : State) (n : StallId) (batch q : Nat) (e : Entry) : Nat :=
  let v := s.serving[n]
  if q = 1 then (match v.index? (Entry.field e 6 2) with | some x => x.epoch | none => 0)
  else if q = 3 then
    let tbl := Entry.field e 5 1
    let cur := match v.table? tbl with | some t => t.version | none => 0
    match (v.batch? batch).bind (·.pins) with
    | some l => (match l.find? fun x => x.1 = tbl with | some x => x.2 | none => cur)
    | none => cur
  else 0

/-- A pushed output token marks its row of a generation batch (R311). -/
def Serving.markPushed (v : Serving) (num : Nat) (e : Entry) : Serving :=
  v.modBatch num fun b => { b with rows := b.rows.map fun r => if r.tag = e.setWidth 32 ∧ r.step = Entry.field e 8 4 ∧ r.step ≠ 0 then { r with pushed := true } else r }

/-- Move an entry into the Stall's share; an entry of a cancelled request is discarded while the push reports 0 (R319). The outcome for sD is 1 for a full share. -/
def State.pushEntry (s : State) (n : StallId) (d : Die) (batch q : Nat) (e : Entry) : State × Nat :=
  let tag : Word := queueTag q e
  let v := s.serving[n]
  if v.requests.any fun r => r.tag = tag && r.cancelled then (s, 0)
  else if s.queueFull n d q then (s.count (some n) (0x030 + q) 1, 1)
  else
    let s := s.enqueue n d q { e, tag, since := s.now, note := s.pushNote n batch q e, poison := false }
    let s := s.modReq n tag fun r => { r with stage := queueStage q }
    (if q = 8 then s.modSrv n fun v => v.markPushed batch e else s, 0)

/-- The instruction ends with an outcome in sD. -/
def State.endWith (s : State) (t : TileId) (d : BitVec 5) (x : Nat) : State := s.modTile t fun tl => (tl.setS d (BitVec.ofNat 64 x)).advance

def State.issueQpush (s : State) (t : TileId) (w : DyWord) (tl : Tile) : State :=
  let a := (tl.sreg w.a).toNat
  if tl.busyS [w.d, w.a] then s
  else if a % 64 ≠ 0 then s.faultKernel t .align 0
  else if !tsOk a 64 then s.faultKernel t .tsRange 0
  else if tl.marked a 64 then s.faultKernel t .poison 0
  else match tl.run with
    | some r =>
      let p := s.pushEntry r.stall (tileDie t) r.item.batch (w.low.toNat % 16) (entryOfBytes (tl.read a 64))
      p.1.endWith t w.d p.2
    | none => s
def execDyQpush (t : TileId) (w : DyWord) (s : State) : Out := dyRunS 0xC0 t w (fun tl s => s.issueQpush t w tl) s

/-! ### qpop -/

/-- A kernel of the batch has popped an entry: the batch keeps it until it ends, and its request joins the batch (R305, R301). -/
def State.joinBatch (s : State) (n : StallId) (num q : Nat) (e : QEntry) : State :=
  let ran : Bool := ((s.serving[n]).batch? num).any (·.wide)
  let again : Bool := ((s.serving[n]).batch? num).any (·.again)
  let s := s.modSrv n fun v => v.modBatch num fun b => { b with popped := b.popped ++ [(q, e)], served := if b.served.contains e.tag then b.served else b.served ++ [e.tag], dead := b.dead.filter (· ≠ e.tag) }
  let s := if ran then s.modReq n e.tag (fun r => { r.note 0x800 with wide := true }) else s
  if again then s.modReq n e.tag (fun r => { r.note 0x1000 with retried := true }) else s

def State.issueQpop (s : State) (t : TileId) (w : DyWord) (tl : Tile) : State :=
  let a := (tl.sreg w.a).toNat
  let q := w.low.toNat % 16
  let d := tileDie t
  if tl.busyS [w.d, w.a] then s
  else if a % 64 ≠ 0 then s.faultKernel t .align 0
  else if !tsOk a 64 then s.faultKernel t .tsRange 0
  else match tl.run with
    | some r =>
      let n := r.stall
      -- The device takes every prompt entry itself (Table 12.7).
      (match if q = 6 then [] else (s.serving[n]).queue d q with
       | e :: rest =>
         let s := (s.modSrv n fun v => v.setQueue d q rest).joinBatch n r.item.batch q e
         let s := s.modTile t fun tl => let tl := tl.write a (Entry.bytes e.e); if e.poison then tl.mark a else tl
         s.endWith t w.d 0
       | [] => s.endWith t w.d 1)
    | none => s
def execDyQpop (t : TileId) (w : DyWord) (s : State) : Out := dyRunS 0xC1 t w (fun tl s => s.issueQpop t w tl) s

/-! ### spawn -/

/-- Registers s1–s8. -/
def argRegs : List (BitVec 5) := (List.range 8).map fun i => BitVec.ofNat 5 (i + 1)

/-- Place a spawned item: the own segment of 32, else the inbox of 1,024, else nowhere (R126, R128). A staged item has left its segment: its place there is free, and its
return to the head can make 33 (log 89). -/
def State.placeItem (s : State) (n : StallId) (t : TileId) (i : Item) : Option State :=
  let v := s.serving[n]
  if (v.segment t).length < 32 then some ((s.modSrv n fun v => v.setSegment t (v.segment t ++ [i])).stageItem n t)
  else if (v.inboxOf (tileDie t)).length < 1024 then some (s.modSrv n fun v => v.setInbox (tileDie t) (v.inboxOf (tileDie t) ++ [i]))
  else none

def State.issueSpawn (s : State) (t : TileId) (w : DyWord) (tl : Tile) : State :=
  if tl.busyS (w.d :: argRegs) then s
  else match tl.run with
    | none => s
    | some r =>
      let n := r.stall
      let v := s.serving[n]
      match v.keep.containers.find? fun c => c.id = r.cont with
      | none => s
      | some c =>
        match c.kernels[w.low.toNat % 65536]? with
        | none => s
        | some k =>
          if c.unloading then s.endWith t w.d 2
          else if v.spawnDrops r.item.batch then s.endWith t w.d 0
          else if s.boundTooLong n k.handle then
            let f : Failure := { status := .overrun, fault := 0x110, kh := k.handle, pc := BitVec.ofNat 32 tl.pc }
            (s.endBatch n r.item.batch (.overrun f)).endWith t w.d 0
          else match s.placeItem n t { handle := k.handle, args := argRegs.map tl.sreg, batch := r.item.batch } with
            | some s => s.endWith t w.d 0
            | none => s.endWith t w.d 1
def execDySpawn (t : TileId) (w : DyWord) (s : State) : Out := dyRunS 0xC2 t w (fun tl s => s.issueSpawn t w tl) s

/-! ### fence and wait -/

/-- fence: tile store accesses before it are ordered against those after it, on every unit: the units and the DMAs have drained. -/
def fenceOp (t : Tile) : TStep := if t.unitsIdle && t.tags.toList.all Option.isNone then .go t else .hold
def execDyFence (t : TileId) (w : DyWord) (s : State) : Out := dyRun 0xC4 t w fenceOp s

/-- wait: for the units that SUB[2:0] names. -/
def waitOp (w : DyWord) (t : Tile) : TStep :=
  if (w.low.getLsbD 0 && !t.mat.isEmpty) || (w.low.getLsbD 1 && t.mstl.isSome) || (w.low.getLsbD 2 && !t.mv.isEmpty) then .hold else .go t
def execDyWait (t : TileId) (w : DyWord) (s : State) : Out := dyRun 0xC5 t w (waitOp w) s

end Sys2Proof.Machine
end

