-- ==== Sys2Proof/Machine/Text.lean ====
section
/-! DEFINITION. Text engine steps, line fills, and the end of a vocabulary's registration (R262, R263, R266, R294). -/
namespace Sys2Proof.Machine

/-- One step of the text engine of a die in a turn of the Stall (R263): the engine's next wheel turn, where that is the Stall's (log 87). -/
def State.textOwn (s : State) (n : StallId) (d : Die) : State :=
  if s.wheelOwner (mapGet 0 s.churn.turns (turnKey (.textEngine d))) = .stall n then s.wheelTurn (.textEngine d) else s
def execTextStep (n : StallId) (die : Die) (s : State) : Out := evs (fun s => s.textOwn n die) s

/-- A table line arrives at the text engine: the job that waits for it becomes ready. -/
def State.lineFill (s : State) (n : StallId) (d : Die) (job : Nat) : State :=
  s.modSrv n fun v => { v with text := v.text.map fun j => if j.id = job ∧ j.die = d ∧ j.line then { j with line := false, filled := true } else j }
def execTextLineFill (n : StallId) (die : Die) (job : Nat) (s : State) : Out := ev (fun s => s.lineFill n die job) s

/-- TXT_CTRL.RUN (R294). -/
def execTxtCtrlRun (v : BitVec 32) (s : State) : Out := evls (fun s => s.setReg .txt 0x000 (v &&& 1)) s

/-- The derived structures of a vocabulary are built: it is registered, and its command completes with the handle and their size (R266). -/
def State.vocabBuilt (s : State) (n : StallId) (h : Nat) : State :=
  let v := s.serving[n]
  match v.vocabCmds.find? (fun x => x.2 = h), v.keep.vocabs.find? (fun x => x.handle = h) with
  | some x, some voc =>
    let s := s.modSrv n fun v =>
      { v with vocabCmds := v.vocabCmds.filter fun y => y.2 ≠ h
               keep := { v.keep with vocabs := v.keep.vocabs.map fun y => if y.handle = h then { y with ready := true } else y } }
    s.finish x.1 .ok h voc.size
  | _, _ => s
def execVocabStructuresBuilt (n : StallId) (h : Nat) (s : State) : Out := evs (fun s => s.vocabBuilt n h) s

end Sys2Proof.Machine
end

