-- ==== Sys2Proof/Machine/Registers.lean ====
section
/-! DEFINITION. Register reads and writes (R25–R53): checks and their record, classes, locks, split 64-bit values, and what each register shows. -/
namespace Sys2Proof.Machine

/-! ### What a block shows (R48, Table 2.9) -/

def State.ballastDownAll (s : State) : Bool := s.churn.rows.toList.all fun r => !r.ballast
def State.allDry (s : State) : Bool := allStalls.all fun n => decide (s.stallState n = .dry)
def State.runBit (s : State) (b : Block) : Bool := (s.reg b 0x000).getLsbD 0
/-- Does a walk or an update operation run for some Stall? -/
def State.searchBusy (s : State) : Bool :=
  allStalls.any fun n => !(s.serving[n]).walks.isEmpty || (s.serving[n]).idxCmds.any fun c => match c.run with | .update ops _ => ops.any fun o => o.st.running | _ => false
/-- Does a gather request or a table command row run? -/
def State.gatherBusy (s : State) : Bool :=
  allStalls.any fun n => !(s.serving[n]).reads.isEmpty || !(s.serving[n]).jobs.isEmpty || (s.serving[n]).tblCmds.any fun c => match c.run with | .mapping _ => true | _ => false
/-- Does a flash command run? Each runs within its turn; what is left of one is the data of the last, on its way to a staging page (R340, R362). -/
def State.flashRunning (s : State) : Bool :=
  (List.finRange 17).any fun f => (s.mem.fns[f]).staged.any fun y => y.filling && (s.fillSecs f (y.base / 65536 + y.page)).all fun c => !(s.mem.fns[f]).rdQ.contains (s.sectorAt f c)
def State.stoppedBits (s : State) : List Bool :=
  [s.halted, s.halted && s.allDry, !s.runBit .ftl && !s.flashRunning, s.halted && s.ballastDownAll, s.fabric.ports.toList.all fun p => decide (p.st = .disabled), !s.runBit .txt,
   !s.runBit .src && !s.searchBusy, !s.runBit .gth && !s.gatherBusy]
/-- GLB_STOPPED (Table 2.11). -/
def State.stoppedWord (s : State) : Word := Sys2Proof.Machine.maskOf 8 fun i => s.stoppedBits.getD i false

/-! ### Reading (R27–R30, R42) -/

def Code.word (c : Code) : Word := c.num.setWidth 32
def flag (b : Bool) (k : Nat) : Word := if b then BitVec.twoPow 32 k else 0
def lo48 (x : BitVec 48) : Word := x.setWidth 32
def hi48 (x : BitVec 48) : Word := (x >>> 32).setWidth 32
def halves (x : BitVec 64) (high : Bool) : Word := if high then hi32 x else lo32 x

def StallState.num : StallState → Nat
  | .dry => 0 | .freshening => 1 | .fresh => 2 | .drying => 3
def PortState.num : PortState → Nat
  | .disabled => 0 | .laser => 1 | .align => 2 | .fec => 3 | .exchange => 4 | .active => 5 | .down => 6
def HostFn.rejInfo (h : HostFn) : Word := h.rejCause.setWidth 32 ||| (h.rejCount.setWidth 32 <<< 8)
def State.churnUs (s : State) : Nat := (s.now - s.churn.boundaryAt) / usBclk
def State.seqCount (s : State) (n : StallId) : Nat := (s.serving[n]).requests.length

def State.readGlb (s : State) (o : Nat) : Word :=
  if o = 0x000 then glbIdent else if o = 0x00C then s.stoppedWord
  else if o = 0x010 then s.host[pf0].rejAddr else if o = 0x014 then (s.host[pf0]).rejInfo else 0
def State.readStl (s : State) (n : StallId) (o : Nat) : Word :=
  if o = 0x000 then BitVec.ofNat 32 ((s.stallState n).num + (s.stalls[n]).last.num.toNat * 2 ^ 8)
  else if o = 0x01C then (s.stalls[n]).rowTime.setWidth 32
  else if o = 0x058 then BitVec.ofNat 32 ((s.serving[n]).handles.length * 2 ^ 16 + s.seqCount n)
  else if o = 0x060 ∨ o = 0x064 then halves (s.serving[n]).charged (decide (o = 0x064)) else 0
/-- CHN_POS is a 13-bit field: DESIGN CHOICE: while the Churn stays halted beyond 8,191 µs it wraps (log 96). -/
def State.readChn (s : State) (o : Nat) : Word :=
  if o = 0x000 then flag (s.churn.running && !s.churn.halting) 0 else if o = 0x00C then s.churn.skipReg
  else if o = 0x010 ∨ o = 0x014 then halves s.churn.num (decide (o = 0x014)) else if o = 0x018 then BitVec.ofNat 32 (s.churnUs % 8192) else 0
def State.readMem32 (s : State) (o : Nat) : Word :=
  if o = 0x000 then 0x203B1350
  else if o = 0x018 then s.mem.presStatus.word ||| flag s.mem.prov.isSome 8 ||| (s.mem.presSkipped.setWidth 32 <<< 16)
  else if o = 0x01C then s.mem.pfreed else if o = 0x020 then 0x1000 else if o = 0x024 then BitVec.ofNat 32 s.providerUse else if o = 0x028 then BitVec.ofNat 32 s.flashFree
  else
    let n : StallId := Fin.ofNat 16 ((o - 0x100) / 0x40)
    let r := o % 0x40
    let m := s.mem.fns[vfOf n]
    BitVec.ofNat 32 (if r = 0x20 then s.hbmUse n else if r = 0x24 then s.flashUse n else if r = 0x28 then s.poolUse n else if r = 0x2C then m.dirtyCount
      else if r = 0x30 then (m.allocs.filter fun a => !a.device).length else m.qfail.toNat)
def State.readFtl (s : State) (o : Nat) : Word :=
  let x := s.mem.flash
  if o = 0x008 then 0x10041080 else if o = 0x018 then BitVec.ofNat 32 x.used else if o = 0x01C then BitVec.ofNat 32 x.spares
  else if o = 0x020 ∨ o = 0x024 then halves x.hostW (decide (o = 0x024)) else if o = 0x028 ∨ o = 0x02C then halves x.nandW (decide (o = 0x02C))
  else if o = 0x030 then x.ecWord else BitVec.ofNat 32 ((4096 * s.bufferSecs + 1048575) / 1048576 % 512)
def widthCode (w : Nat) : Nat := if w = 2 then 1 else if w = 4 then 2 else if w = 8 then 3 else 0
def State.readFab (s : State) (p : PortId) (o : Nat) : Word :=
  let x := s.port p
  if o = 0x008 then
    let peer := match x.peer with | some (m, q) => m.toNat * 2 ^ 16 + q.val * 2 ^ 24 + 2 ^ 31 | none => 0
    BitVec.ofNat 32 (x.st.num + widthCode x.width * 2 ^ 4 + (x.groups.map fun g => 2 ^ (8 + g)).sum + peer)
  else if o = 0x010 then x.faults.setWidth 32 else if o = 0x014 then x.rtt.setWidth 32
  else if o = 0x018 ∨ o = 0x01C then halves x.fecc (decide (o = 0x01C)) else if o = 0x020 ∨ o = 0x024 then halves x.fecu (decide (o = 0x024))
  else if o = 0x028 then x.replays else x.laserTemp.setWidth 32 ||| flag (s.lasersOk p) 8
def State.readTrf (s : State) (o : Nat) : Word :=
  if o = 0x014 then s.fabric.syncErr.setWidth 32
  else
    let k := (o - 0x1000) / 0x10
    let x := s.port (Fin.ofNat 32 (k / 32))
    (mapGet 0 x.red (k % 32)).setWidth 32 ||| ((mapGet 0 x.yel (k % 32)).setWidth 32 <<< 16)
def State.readPwr (s : State) (o : Nat) : Word :=
  let p := s.power
  if o = 0x010 then BitVec.ofNat 32 s.clk else if o = 0x020 then p.vin.setWidth 32 else if o = 0x024 then p.vmax ++ p.vmin else if o = 0x028 then p.iin.setWidth 32
  else if o = 0x02C then p.pinReg else if o = 0x030 then p.ripple.setWidth 32 else if o = 0x034 ∨ o = 0x038 then halves p.energy (decide (o = 0x038))
  else if o = 0x040 then p.bankReg else if o = 0x044 then p.bankeReg else if o = 0x048 then p.distReg else if o = 0x04C then p.distV.setWidth 32
  else if 0x100 ≤ o ∧ o < 0x1B0 then
    let r : Fin 22 := Fin.ofNat 22 ((o - 0x100) / 8)
    if o % 8 = 0 then flag p.rails[r] 16 ||| (p.mv[r]).setWidth 32 else (p.amps[r]).setWidth 32
  else if 0x200 ≤ o ∧ o < 0x2D8 then let g : Fin 54 := Fin.ofNat 54 ((o - 0x200) / 4); (p.temps[g]).setWidth 32 ||| ((p.tmax[g]).setWidth 32 <<< 8)
  else 0
def State.readRas (s : State) (o : Nat) : Word :=
  let x := s.ras
  if o = 0x004 then flag (decide (s.mgt.stage = 11)) 0
  else if o = 0x010 then BitVec.ofNat 32 (x.lost.toNat * 2 ^ 16 + x.recs.length)
  else if 0x020 ≤ o ∧ o < 0x040 then (match x.recs.head? with | some r => BitVec.ofNat 32 (bytesField r.bytes (o - 0x020) 4) | none => 0)
  else if o = 0x040 ∨ o = 0x044 then halves x.ce (decide (o = 0x044)) else if o = 0x048 ∨ o = 0x04C then halves x.ue (decide (o = 0x04C))
  else if o = 0x050 then x.retired.setWidth 32 else if o = 0x054 then BitVec.ofNat 32 x.pending.length
  else if 0x100 ≤ o then BitVec.ofNat 32 (mapGet 0 s.mem.gret ((o - 0x100) / 4)) else 0
def State.readSec (s : State) (o : Nat) : Word :=
  let x := s.sec
  if o = 0x004 then x.stateWord else if o = 0x010 then x.result.word ||| BitVec.ofNat 32 (x.reason * 2 ^ 8) ||| flag x.cmd.isSome 16
  else if o = 0x020 then x.krevWord else if o = 0x024 then x.kslots.setWidth 32
  else if 0x040 ≤ o ∧ o < 0x080 then (let k := (o - 0x040) / 4; if 1 ≤ k then BitVec.ofNat 32 (x.floors.toList.getD (k - 1) 0) else 0)
  else x.scrubWord (Fin.ofNat 16 ((o - 0x100) / 4))
/-- An event counter's registers (Tables 20.2, 20.3). -/
def State.readCounter (s : State) (owner o : Nat) : Word :=
  let c := s.counter owner (o / 0x20)
  let r := o % 0x20
  if r = 0x00 then lo48 (s.counterNow owner (o / 0x20)) else if r = 0x04 then hi48 (s.counterNow owner (o / 0x20))
  else if r = 0x08 then lo48 c.snap else if r = 0x0C then hi48 c.snap else c.snapn
def State.readMgt (s : State) (o : Nat) : Word :=
  let m := s.mgt
  if 0x1000 ≤ o then s.readCounter 16 (o - 0x1000)
  else if o = 0x004 then BitVec.ofNat 32 s.bootWord else if o = 0x010 ∨ o = 0x014 then halves s.rtcNow (decide (o = 0x014))
  else if o = 0x020 then BitVec.ofNat 32 (s.posNow / 3600) else if o = 0x024 then m.tcyc else if o = 0x028 then m.starts
  else if o = 0x030 ∨ o = 0x034 then halves m.logSeq (decide (o = 0x034)) else if o = 0x058 then m.logRes.word ||| flag m.logRun.isSome 8
  else m.telem.getD ((o - 0x100) / 4) 0
/-- TXT, SRC and GTH: the fixed counts of the block, a Stall's use, and its count since cold reset. -/
def engineRead (info : Word) (use : StallId → Nat) (total : StallId → BitVec 64) (o : Nat) : Word :=
  let n : StallId := Fin.ofNat 16 ((o - 0x100) / 0x10)
  if o = 0x008 then info else if o % 0x10 = 0x4 then BitVec.ofNat 32 (use n) else halves (total n) (decide (o % 0x10 = 0xC))
def State.txtUse (s : State) (n : StallId) : Nat :=
  let k := (s.serving[n]).keep
  k.vocabs.length + k.grammars.length * 2 ^ 8 + k.templates.length * 2 ^ 16
def State.srcUse (s : State) (n : StallId) : Nat := (s.serving[n]).keep.indexes.length + ((s.serving[n]).keep.indexes.map fun x => x.shards.length).sum * 2 ^ 16
/-- STATE of Table 5.7. -/
def State.tileState (s : State) (t : TileId) : Nat :=
  match (s.tiles[t]).quar with
  | .quar _ => 4
  | .pending _ => 5
  | .selftest _ => 6
  | .passed _ => 6
  | .none => if (s.churn.rows[tileRow t]).switching then 3 else if (s.tileSlot t).isNone then 0 else if (s.tiles[t]).run.isSome then 2 else 1
def State.readTil (s : State) (t : TileId) (o : Nat) : Word :=
  let x := s.tiles[t]
  if o = 0x00 then
    let cause := match x.quar with | .quar c => c.toNat | .selftest c => c.toNat | .passed c => c.toNat | _ => 0
    let own := match (s.churn.rows[tileRow t]).held with | some n => if x.quar.held then 0 else n.val * 2 ^ 8 + 2 ^ 7 | none => 0
    BitVec.ofNat 32 (s.tileState t + own + cause * 2 ^ 12)
  else if o = 0x10 then x.fInfo else if o = 0x14 then x.fPc else if o = 0x18 then x.fKh else if o = 0x1C then x.fBatch
  else if o = 0x20 ∨ o = 0x24 then halves x.items (decide (o = 0x24)) else halves x.steals (decide (o = 0x2C))
def State.readVf (s : State) (n : StallId) (o : Nat) : Word :=
  let h := s.host[vfOf n]
  if o = 0x000 then glbIdent else if o = 0x008 then h.rejAddr else if o = 0x00C then h.rejInfo
  else if o = 0x010 then BitVec.ofNat 32 (n.val + (s.stallState n).num * 2 ^ 4) else if o = 0x014 then BitVec.ofNat 32 s.periodUs
  else if o = 0x018 ∨ o = 0x01C then halves s.churn.num (decide (o = 0x01C)) else if o = 0x020 then (s.serving[n]).left
  else if o = 0x030 then h.errCe else if o = 0x034 then h.errUe else if o = 0x038 ∨ o = 0x03C then halves h.errAddr (decide (o = 0x03C)) else 0
/-- RSTATE and RERR of a ring pair (R408, R409, R412). -/
def State.readRing (s : State) (f : Fn) (o : Nat) : Word :=
  let g := s.ring f (Fin.ofNat 8 (o / 0x40))
  if o % 0x40 = 0x24 then BitVec.ofNat 32 (g.sqHead + g.cqTail * 2 ^ 16) else g.code.setWidth 32 ||| flag g.halted 8 ||| flag g.drained 9

/-- What a read-only register shows. -/
def State.readRo (s : State) (b : Block) (o : Nat) : Word :=
  match b with
  | .glb => s.readGlb o
  | .stl n => s.readStl n o
  | .chn => s.readChn o
  | .mem => s.readMem32 o
  | .ftl => s.readFtl o
  | .fab p => s.readFab p o
  | .trf => s.readTrf o
  | .pwr => s.readPwr o
  | .ras => s.readRas o
  | .sec => s.readSec o
  | .mgt => s.readMgt o
  | .txt => engineRead 0x00080004 s.txtUse (fun n => (s.serving[n]).nTokens) o
  | .src => engineRead 0x10001020 s.srcUse (fun n => (s.serving[n]).nWalks) o
  | .gth => engineRead 0x10001010 (fun n => (s.serving[n]).keep.tables.length) (fun n => (s.serving[n]).nHits) o
  | .til t => s.readTil t o
  | .pfPages => s.readRing pf0 (o - 0x3000)
  | .vfId n => s.readVf n o
  | .vfDoor _ => 0
  | .vfCnt n => s.readCounter n.val o
  | .vfRing n => s.readRing (vfOf n) o

/-- The status register at a decoded offset. -/
def statAt (b : Block) (o : Nat) : Option StatReg :=
  match b, o with
  | .glb, 0x004 => some .glb
  | .stl n, 0x004 => some (.stl n)
  | .chn, 0x008 => some .chn
  | .mem, 0x004 => some .mem
  | .ftl, 0x004 => some .ftl
  | .fab p, 0x00C => some (.fab p)
  | .trf, 0x004 => some .trf
  | .pwr, 0x000 => some .pwr
  | .ras, 0x000 => some .ras
  | .sec, 0x000 => some .sec
  | .mgt, 0x000 => some .mgt
  | .txt, 0x004 => some .txt
  | .src, 0x004 => some .src
  | .gth, 0x004 => some .gth
  | .til t, 0x04 => some (.til t)
  | .vfId n, 0x004 => some (.vf n)
  | _, _ => none

/-- The ring pair whose register `k` stands at an offset. -/
def ringRegAt (k : Nat) (b : Block) (o : Nat) : Option (Fn × RingId) :=
  match b with
  | .pfPages => if 0x3000 ≤ o ∧ o < 0x3200 ∧ o % 0x40 = k then some (pf0, Fin.ofNat 8 ((o - 0x3000) / 0x40)) else none
  | .vfRing n => if o < 0x200 ∧ o % 0x40 = k then some (vfOf n, Fin.ofNat 8 (o / 0x40)) else none
  | _ => none
/-- The ring pair whose RCTRL stands at an offset. -/
def rctrlAt (b : Block) (o : Nat) : Option (Fn × RingId) := ringRegAt 4 b o
/-- The class L 64-bit values whose low half is held until the high half is written (R29). -/
def splitAt (b : Block) (o : Nat) : Option (Nat × Bool) :=
  match b with
  | .mem => if o = 0x010 then some (0x010, false) else if o = 0x014 then some (0x010, true) else none
  | .sec => if o = 0x014 then some (0x014, false) else if o = 0x018 then some (0x014, true) else none
  | .mgt =>
    if o = 0x018 then some (0x018, false) else if o = 0x01C then some (0x018, true)
    else if o = 0x048 then some (0x048, false) else if o = 0x04C then some (0x048, true) else none
  | _ => none
/-- A register as software reads it: a low half that is held reads as written (R29, R45); while a Stall reset runs, a VF reads the values that the reset will leave (R497). -/
def State.readReg (s : State) (b : Block) (o : Nat) : Word :=
  match regAt b o with
  | none => 0
  | some r => match r.kind with
    | .wo => 0
    | .ro => s.readRo b o
    | .status => match statAt b o with | some x => s.statWord x | none => 0
    | .rw => match rctrlAt b o with
      | some (f, q) => (s.regWritten b o &&& 0x2) ||| flag (s.ring f q).en 0
      | none => if b = .chn ∧ o = 0 then s.readRo b o else match splitAt b o with
        | some (lo, false) => (mapGet none s.holdWr (regKey b lo)).getD (s.regWritten b o)
        | _ => s.regWritten b o
/-- The Stall whose reset runs while a function reads its BAR0: the reset's end leaves rings and counters at their reset values. -/
def State.readFn (s : State) (f : Fn) (b : Block) (o : Nat) : Word :=
  match stallOf f with
  | some n => if !s.barOpen f then (match b with
      | .vfRing _ => if o % 0x40 = 0x28 then 0x200 else (match regAt b o with | some r => r.reset | none => 0)
      | .vfCnt _ => 0
      | .vfId _ => if o = 0x004 then s.statWord (.vf n) else s.readReg b o
      | _ => s.readReg b o) else s.readReg b o
  | none => s.readReg b o

/-- Is an offset the low half of a 64-bit value (R29)? -/
def lowHalf (b : Block) (o : Nat) : Bool :=
  match b with
  | .stl _ => decide (o = 0x010) || decide (o = 0x060)
  | .chn => decide (o = 0x010)
  | .mem => decide (o = 0x010)
  | .ftl => decide (o = 0x020) || decide (o = 0x028)
  | .fab _ => decide (o = 0x018) || decide (o = 0x020)
  | .pwr => decide (o = 0x034)
  | .ras => decide (o = 0x040) || decide (o = 0x048)
  | .sec => decide (o = 0x014)
  | .mgt => decide (o = 0x010) || decide (o = 0x018) || decide (o = 0x030) || decide (o = 0x048) || (decide (0x1000 ≤ o) && (decide (o % 0x20 = 0) || decide (o % 0x20 = 8)))
  | .txt | .src | .gth => decide (0x100 ≤ o) && decide (o % 0x10 = 8)
  | .til _ => decide (o = 0x20) || decide (o = 0x28)
  | .vfId _ => decide (o = 0x018) || decide (o = 0x038)
  | .vfCnt _ => decide (o % 0x20 = 0) || decide (o % 0x20 = 8)
  | .vfRing _ => decide (o < 0x200) && (decide (o % 0x40 = 8) || decide (o % 0x40 = 0x10) || decide (o % 0x40 = 0x18))
  | .pfPages => decide (0x3000 ≤ o) && decide (o < 0x3200) && (decide (o % 0x40 = 8) || decide (o % 0x40 = 0x10) || decide (o % 0x40 = 0x18))
  | _ => false
/-- The bytes of a word that byte enables name. -/
def enabled (be : BitVec 4) (v : Word) : List Byte := ((List.range 4).filter fun i => be.getLsbD i).map fun i => (toBytesLE 4 v.toNat).getD i 0
/-- A read answers the addressed bytes of the register (R28); that of a low half copies the high half, which the next read of the high half returns (R29). -/
def State.readAt (s : State) (f : Fn) (b : Block) (o : Nat) (be : BitVec 4) : State :=
  let give := fun (s : State) (v : Word) => ({ s with answer := s.answer ++ enabled be v } : State)
  if lowHalf b o then give { s with holdRd := mapSet none s.holdRd (regKey b (o + 4)) (some (s.readFn f b (o + 4))) } (s.readFn f b o)
  else match mapGet none s.holdRd (regKey b o) with
    | some v => give { s with holdRd := mapSet none s.holdRd (regKey b o) none } v
    | none => give s (s.readFn f b o)
/-- A BAR0 offset as an access carries it: a VF's BAR0 is 1 MiB (R31). -/
def barOff (f : Fn) (off : BitVec 28) : Nat := if f = pf0 then off.toNat else off.toNat % 2 ^ 20
/-- Blocks of PF0 that answer in the fatal state (R444). -/
def fatalBlock : Block → Bool
  | .glb => true
  | .ras => true
  | .mgt => true
  | _ => false
/-- A host access to a function's BAR0, in a state in which its block answers (R444, R500). -/
def bar (f : Fn) (off : BitVec 28) (g : State → State) (s : State) : Out :=
  .next (let s := s.tick
         let fatalOk := decide (s.mgt.stage = 11) && decide (f = pf0) && (match decodeOff f (barOff f off) with | some (b, _) => fatalBlock b | none => true)
         if s.mgt.linkUp && (s.up || fatalOk) then g s else s)
/-- An offset that no block maps reads as zero (R27). -/
def State.barRead (s : State) (f : Fn) (off : BitVec 28) (be : BitVec 4) : State :=
  match decodeOff f (barOff f off) with
  | some (b, o) => s.readAt f b o be
  | none => { s with answer := s.answer ++ enabled be 0 }
/-- The words of a larger access follow at ascending offsets (R28). -/
def State.barReads (s : State) (f : Fn) (off : BitVec 28) : List (BitVec 4) → State
  | [] => s
  | be :: l => (s.barRead f off be).barReads f (off + 4) l
def execLowHalfRead (f : Fn) (x : BarRead) (s : State) : Out := bar f x.off (fun s => ({ s with answer := [] } : State).barReads f x.off (x.be :: x.more)) s

/-! ### Writing: the checks (R38–R50) -/

/-- The bit of GLB_LOCK that governs a block's RWL fields. -/
def lockBit : Block → Option Nat
  | .chn => some 0
  | .mem => some 1
  | .ftl => some 2
  | .fab _ => some 3
  | .trf => some 4
  | .pwr => some 5
  | .ras => some 6
  | .sec => some 7
  | .mgt => some 8
  | .stl _ => some 9
  | _ => none
def State.locked (s : State) (b : Block) (r : RegDesc) : Bool := r.rwl && (match lockBit b with | some k => (s.reg .glb 0x008).getLsbD k | none => false)
def State.dryOf (s : State) (k : Nat) : Bool := decide (s.stallState (Fin.ofNat 16 k) = .dry)
def State.portOff (s : State) (k : Nat) : Bool := decide ((s.port (Fin.ofNat 32 k)).st = .disabled)

/-- MEM_GOWNj (Table 14.10): each Stall that owns one of the four groups before or after the write is DRY; a group goes to or from the Commons only while the Churn
is halted and every Stall DRY. -/
def State.gownOk (s : State) (o : Nat) (v : Word) : Bool :=
  (List.range 4).all fun i =>
    let g := (o - 0x40) / 4 * 4 + i
    let old := s.groupOwner g
    let new := if g = 19 ∨ g = 59 then 0xFE else v.toNat / 2 ^ (8 * i) % 256
    (decide (16 ≤ old) || s.dryOf old) && (decide (16 ≤ new) || s.dryOf new) && (decide (old = new) || (decide (old ≠ 0x10) && decide (new ≠ 0x10)) || (s.halted && s.allDry))

/-- Is the unit that a register configures stopped (Table 2.9)? `v` is the value written. -/
def State.unitStopped (s : State) (b : Block) (o : Nat) (v : Word) : Bool :=
  match b with
  | .stl n => decide (s.stallState n = .dry)
  | .chn => s.halted
  | .mem => if o < 0x100 then s.gownOk o v else s.dryOf ((o - 0x100) / 0x40)
  | .ftl => !s.runBit .ftl && !s.flashRunning
  | .fab p => decide ((s.port p).st = .disabled)
  | .trf =>
    if o = 0x008 then s.fabric.ports.toList.all fun p => decide (p.st = .disabled)
    else if 0x040 ≤ o ∧ o < 0x080 then s.dryOf ((o - 0x40) / 4) else if 0x800 ≤ o ∧ o < 0xC00 then s.dryOf ((o - 0x800) / 0x40)
    else if 0x1000 ≤ o ∧ o < 0x5000 then s.portOff ((o - 0x1000) / 0x200) else if 0x5000 ≤ o ∧ o < 0x7000 then s.portOff ((o - 0x5000) / 0x100)
    else if 0x7000 ≤ o then s.portOff ((o - 0x7000) / 0x80) else false
  | .pwr => s.halted && s.ballastDownAll
  | .txt => s.dryOf ((o - 0x100) / 0x10)
  | .src => if 0x100 ≤ o then s.dryOf ((o - 0x100) / 0x10) else !s.runBit .src && !s.searchBusy
  | .gth => if 0x100 ≤ o then s.dryOf ((o - 0x100) / 0x10) else !s.runBit .gth && !s.gatherBusy
  | .til t => (s.tiles[t]).quar.held || s.halted
  | .vfRing n => (s.ring (vfOf n) (Fin.ofNat 8 (o / 0x40))).drained
  | .pfPages => (s.ring pf0 (Fin.ofNat 8 ((o - 0x3000) / 0x40))).drained
  | _ => false

/-! ### Writing: the effects -/

/-- A byte of a word, held within a range. -/
def clampByte (v : Word) (i lo hi : Nat) : Nat := clampTo lo hi (v.toNat / 2 ^ (8 * i) % 256) * 2 ^ (8 * i)
/-- The PWR block takes the nearest value within a field's range (R437); LIMIT_MAX bounds PWR_LIMIT (Table 19.4). -/
def State.inRange (s : State) (b : Block) (o : Nat) (v : Word) : Word :=
  if b = .pwr ∧ o = 0x004 then BitVec.ofNat 32 (clampTo 800 (min 2600 s.sec.cfg.limitMax) v.toNat)
  else if b = .pwr ∧ o = 0x008 then BitVec.ofNat 32 (clampTo 200 800 v.toNat)
  else if b = .pwr ∧ o = 0x00C then BitVec.ofNat 32 (clampTo 650 1300 v.toNat)
  else if b = .pwr ∧ o = 0x014 then BitVec.ofNat 32 (clampByte v 0 70 100 + clampByte v 1 70 90 + clampByte v 2 50 75 + clampByte v 3 50 75)
  else v
/-- Groups that leave the Commons have not been zero-filled since (R470). -/
def State.noteGown (s : State) (o : Nat) (v : Word) : State :=
  (List.range 4).foldl (fun s i =>
    let g := (o - 0x40) / 4 * 4 + i
    if s.groupOwner g = 0x10 ∧ v.toNat / 2 ^ (8 * i) % 256 ≠ 0x10 then s.modMem fun m => { m with unclean := setInsert m.unclean g } else s) s
/-- Store the fields of a register: at once, or pending for a class T field whose block runs (R42, R44–R46). -/
def State.storeReg (s : State) (b : Block) (o : Nat) (r : RegDesc) (v : Word) : State :=
  let new := s.inRange b o (v &&& r.mask) ||| (r.reset &&& ~~~r.mask)
  if r.cls = .t ∧ !(s.halted || s.unitStopped b o v) then { s with pendT := mapSet none s.pendT (regKey b o) (some new) }
  else
    let s := if b = .mem ∧ 0x040 ≤ o ∧ o < 0x090 then s.noteGown o v else s
    let s : State := { s with pendT := mapSet none s.pendT (regKey b o) none }
    if r.cls = .t then s.applyOne (regKey b o) new else { s with regs := mapSet (regReset (regKey b o)) s.regs (regKey b o) new }

/-- A write to a status register clears the event bits written as 1 when its SEQ is the register's (R36); clearing CFG_REJECT zeroes COUNT (R51). -/
def State.clearStat (s : State) (x : StatReg) (mask v : Word) : State :=
  let st := s.stat x
  if v.toNat / 2 ^ 24 = st.seq.toNat then
    let clr : BitVec 24 := (v &&& mask).setWidth 24
    let s := s.setStat x { st with bits := st.bits &&& ~~~clr }
    match x with
    | .glb => if clr.getLsbD 0 then s.modHost pf0 fun h => { h with rejCount := 0 } else s
    | .vf n => if clr.getLsbD 0 then s.modHost (vfOf n) fun h => { h with rejCount := 0 } else s
    | _ => s
  else s

/-- STL_CMD, MEM_PCMD, SEC_FWCMD, MGT_LOGCMD by code; other codes have no effect. -/
def State.stlCmd (s : State) (n : StallId) (c : Nat) : State :=
  match c with
  | 1 => s.freshen n
  | 2 => s.dryDrain n
  | 3 => s.dryCut n
  | 4 => s.abortFreshen n
  | _ => s
def State.memPcmd (s : State) (v : Word) : State :=
  match v.toNat % 16 with
  | 1 => s.demote v
  | 2 => s.demoteAbort v
  | 3 => s.imgCreate
  | 4 => s.imgDelete
  | _ => s
def State.fwOp (s : State) (v : Word) : State :=
  match v.toNat % 16 with
  | 1 => s.fwStage
  | 2 => s.fwActivate
  | 3 => s.fwCommit
  | 4 => s.fwRevert
  | _ => s
def State.logOp (s : State) (v : Word) : State :=
  match v.toNat % 16 with
  | 1 => s.logRead
  | 2 => s.seal.logEnd .ok
  | _ => s
/-- GLB_RESET acts only with its KEY; WARM outweighs STALL (R495). -/
def State.glbReset (s : State) (v : Word) : State :=
  if v.toNat / 2 ^ 8 % 256 ≠ 0xA5 then s
  else if v.getLsbD 0 then s.warmReset 5
  else (allStalls.filter fun n => v.getLsbD (16 + n.val)).foldl (fun s n => s.resetStall n) s
/-- A doorbell of function `f` at an offset of its page. -/
def State.doorbell (s : State) (f : Fn) (o : Nat) (v : Word) : State :=
  let r : RingId := Fin.ofNat 8 (o / 8)
  if o % 8 = 0 then s.sqTail f r v else s.cqHead f r v
/-- A write-only register acts. -/
def State.writeWo (s : State) (b : Block) (o : Nat) (v : Word) : State :=
  match b with
  | .glb => s.glbReset v
  | .stl n => s.stlCmd n (v.toNat % 16)
  | .mem => s.memPcmd v
  | .ras => if v.getLsbD 0 then s.modRas fun x => { x with recs := x.recs.drop 1 } else s
  | .sec => s.fwOp v
  | .mgt => s.logOp v
  | .til t => if !v.getLsbD 0 then s else if o = 0x08 then s.quarAfter t 1 else s.tileRelease t
  | .vfDoor n => s.doorbell (vfOf n) o v
  | .pfPages => s.doorbell pf0 (o - 0x1000) v
  | _ => s

/-- The RTC takes the value written, and the log its record (R481, R482). -/
def State.setRtc (s : State) (v : BitVec 64) : State :=
  let old := s.rtcNow
  (s.modMgt fun m => { m with rtc := v, rtcAt := s.now, rtcUnset := false }).log 0x000C (toBytesLE 8 old.toNat ++ toBytesLE 8 v.toNat)
/-- A half of such a value is written. -/
def State.writeHalf (s : State) (b : Block) (lo : Nat) (high : Bool) (v : Word) : State :=
  let k := regKey b lo
  if !high then { s with holdWr := mapSet none s.holdWr k (some v) }
  else
    let low := (mapGet none s.holdWr k).getD (s.reg b lo)
    let s := ({ s with holdWr := mapSet none s.holdWr k none } : State).setReg b lo low |>.setReg b (lo + 4) v
    if b = .mgt ∧ lo = 0x018 then s.setRtc (v ++ low) else s

/-- CHN_CTRL.RUN, the run fields of engines, FAB_CTRL.EN and RCTRL act when written; any other register stores its fields, and RIRQ may meet a condition of R413. -/
def State.writeRw (s : State) (b : Block) (o : Nat) (r : RegDesc) (v : Word) : State :=
  match rctrlAt b o, splitAt b o with
  | some (f, q), _ => s.writeRctrl f q v
  | none, some (lo, high) => s.writeHalf b lo high v
  | none, none => match b with
    | .glb => s.setReg .glb 0x008 (s.reg .glb 0x008 ||| (v &&& 0x3FF))
    | .chn => if o = 0 then (if v.getLsbD 0 then s.runSet else if s.churn.running then s.modChurn fun c => { c with halting := true } else s) else s.storeReg b o r v
    | .fab p => if o = 0 then (if v.getLsbD 0 then s.portEnable p else s.portDisable p).relight else s.storeReg b o r v
    | _ => match ringRegAt 0x20 b o with
      | some (f, q) => (s.storeReg b o r v).signalIf f q
      | none => s.storeReg b o r v

/-- A register write (R49): the checks in their order, then the effect. `own`: the write may clear status bits in a BCLK in which events `ev` occur. -/
def State.writeWord (s : State) (f : Fn) (off : BitVec 28) (be : BitVec 4) (v : Word) (ev : BitVec 24) : State :=
  let o' := barOff f off
  if !s.barOpen f then s
  else match decodeOff f o' with
    | none => s.reject f o' 3
    | some (b, o) =>
      if be ≠ 0xF then s.reject f o' 2
      else match regAt b o with
        | none => s
        | some r =>
          if s.locked b r && !decide (b = .glb) then s.reject f o' 1
          else match r.kind with
            | .ro => s
            | .wo => if r.cls = .q && !s.unitStopped b o v then s.reject f o' 0 else s.writeWo b o v
            | .status => match statAt b o with
              | some x =>
                let s := s.clearStat x r.mask v
                let bits := ev &&& r.mask.setWidth 24
                if bits = 0 then s else s.raise x bits
              | none => s
            | .rw => if r.cls = .q && !s.unitStopped b o v then s.reject f o' 0 else s.writeRw b o r v

/-- A host write, after which descriptors held back may start. -/
def barw (f : Fn) (off : BitVec 28) (g : State → State) (s : State) : Out := bar f off (fun s => let s := g s; if s.up then s.settle else s) s
/-- The words of a larger access, each checked on its own at its ascending offset (R28). -/
def State.writeWords (s : State) (f : Fn) (off : BitVec 28) : List BarWord → State
  | [] => s
  | x :: l => (s.writeWord f off x.be x.v 0).writeWords f (off + 4) l
def execRegisterWrite (f : Fn) (off : BitVec 28) (w : BarWord) (more : List BarWord) (s : State) : Out := barw f off (fun s => s.writeWords f off (w :: more)) s
/-- Events `ev` of the register fall in the BCLK of the clear, and are applied after it; so is a later write of the function, which may be rejected (R36, R51). -/
def execStatusRegisterClear (f : Fn) (off : BitVec 28) (v : BitVec 32) (ev : BitVec 24) (late : Option LateWrite) (s : State) : Out :=
  barw f off (fun s =>
    let s := s.writeWord f off 0xF v ev
    match late with
    | some x => s.writeWord f x.off x.be x.v 0
    | none => s) s
def execGlbLockWrite (v : BitVec 32) (s : State) : Out := barw pf0 0x008 (fun s => s.writeWord pf0 0x008 0xF v 0) s
def execSplitValueWrite (f : Fn) (off : BitVec 28) (v : BitVec 32) (s : State) : Out := barw f off (fun s => s.writeWord f off 0xF v 0) s
/-- The high half of MGT_RTC_SET. -/
def execRtcSet (v : BitVec 32) (s : State) : Out := barw pf0 0xB001C (fun s => s.writeWord pf0 0xB001C 0xF v 0) s

end Sys2Proof.Machine
end

