-- ==== Sys2Proof/Machine/RingCommands.lean ====
section
/-! DEFINITION. The ring commands: each row is one descriptor, with the OPCODE of Tables 12.2, 12.3 and 14.3, fetched from a ring (R295, R296). -/
namespace Sys2Proof.Machine

def execDobLoad (f : Fn) (r : RingId) (d : Desc) (s : State) : Out := ringCmd 0x08 f r d s
def execDobUnload (f : Fn) (r : RingId) (d : Desc) (s : State) : Out := ringCmd 0x09 f r d s
def execRequest (f : Fn) (r : RingId) (d : Desc) (s : State) : Out := ringCmd 0x01 f r d s
def execCancel (f : Fn) (r : RingId) (d : Desc) (s : State) : Out := ringCmd 0x02 f r d s
def execDispatch (f : Fn) (r : RingId) (d : Desc) (s : State) : Out := ringCmd 0x03 f r d s
def execProgBind (f : Fn) (r : RingId) (d : Desc) (s : State) : Out := ringCmd 0x10 f r d s
def execProgRetire (f : Fn) (r : RingId) (d : Desc) (s : State) : Out := ringCmd 0x11 f r d s
def execMdlReg (f : Fn) (r : RingId) (d : Desc) (s : State) : Out := ringCmd 0x12 f r d s
def execMdlRetire (f : Fn) (r : RingId) (d : Desc) (s : State) : Out := ringCmd 0x13 f r d s
def execAdpLoad (f : Fn) (r : RingId) (d : Desc) (s : State) : Out := ringCmd 0x14 f r d s
def execCltSet (f : Fn) (r : RingId) (d : Desc) (s : State) : Out := ringCmd 0x15 f r d s
def execPfxDrop (f : Fn) (r : RingId) (d : Desc) (s : State) : Out := ringCmd 0x16 f r d s
def execSrvCfg (f : Fn) (r : RingId) (d : Desc) (s : State) : Out := ringCmd 0x17 f r d s
def execIdxRegister (f : Fn) (r : RingId) (d : Desc) (s : State) : Out := ringCmd 0x20 f r d s
def execIdxUpdate (f : Fn) (r : RingId) (d : Desc) (s : State) : Out := ringCmd 0x21 f r d s
def execIdxSweep (f : Fn) (r : RingId) (d : Desc) (s : State) : Out := ringCmd 0x22 f r d s
def execIdxRetire (f : Fn) (r : RingId) (d : Desc) (s : State) : Out := ringCmd 0x23 f r d s
def execTblRegister (f : Fn) (r : RingId) (d : Desc) (s : State) : Out := ringCmd 0x28 f r d s
def execTblReplace (f : Fn) (r : RingId) (d : Desc) (s : State) : Out := ringCmd 0x29 f r d s
def execTblRetire (f : Fn) (r : RingId) (d : Desc) (s : State) : Out := ringCmd 0x2A f r d s
def execTxtVocabReg (f : Fn) (r : RingId) (d : Desc) (s : State) : Out := ringCmd 0x30 f r d s
def execTxtGrammarReg (f : Fn) (r : RingId) (d : Desc) (s : State) : Out := ringCmd 0x31 f r d s
def execTxtTemplateReg (f : Fn) (r : RingId) (d : Desc) (s : State) : Out := ringCmd 0x32 f r d s
def execTxtTokenise (f : Fn) (r : RingId) (d : Desc) (s : State) : Out := ringCmd 0x33 f r d s
def execTxtRetire (f : Fn) (r : RingId) (d : Desc) (s : State) : Out := ringCmd 0x34 f r d s
def execMemAlloc (f : Fn) (r : RingId) (d : Desc) (s : State) : Out := ringCmd 0x40 f r d s
def execMemFree (f : Fn) (r : RingId) (d : Desc) (s : State) : Out := ringCmd 0x41 f r d s
def execMemSync (f : Fn) (r : RingId) (d : Desc) (s : State) : Out := ringCmd 0x42 f r d s
def execMemMove (f : Fn) (r : RingId) (d : Desc) (s : State) : Out := ringCmd 0x43 f r d s
def execMemHostIn (f : Fn) (r : RingId) (d : Desc) (s : State) : Out := ringCmd 0x44 f r d s
def execMemHostOut (f : Fn) (r : RingId) (d : Desc) (s : State) : Out := ringCmd 0x45 f r d s
def execMemExport (f : Fn) (r : RingId) (d : Desc) (s : State) : Out := ringCmd 0x46 f r d s
def execMemUnexport (f : Fn) (r : RingId) (d : Desc) (s : State) : Out := ringCmd 0x47 f r d s
def execMemQuery (f : Fn) (r : RingId) (d : Desc) (s : State) : Out := ringCmd 0x48 f r d s

end Sys2Proof.Machine
end

