-- ==== Sys2Proof/Machine/Scalar.lean ====
section
/-! DEFINITION. The scalar instructions of Table 4.4 that do not reach the tile store (R90). -/
namespace Sys2Proof.Machine

/-- sD = f sA B′. -/
def scalarOp (f : BitVec 64 → BitVec 64 → BitVec 64) (w : DyWord) (t : Tile) : TStep :=
  if t.busyS (if w.i then [w.d, w.a] else [w.d, w.a, w.b]) then .hold else .go (t.setS w.d (f (t.sreg w.a) (t.bPrime w)))
/-- sD = f sA. -/
def scalarOp1 (f : BitVec 64 → BitVec 64) (w : DyWord) (t : Tile) : TStep :=
  if t.busyS [w.d, w.a] then .hold else .go (t.setS w.d (f (t.sreg w.a)))

def bool64 (b : Bool) : BitVec 64 := if b then 1 else 0
/-- Signed quotient rounded towards zero; by zero −1; −2^63 / −1 gives −2^63. -/
def divS (a b : BitVec 64) : BitVec 64 := if b = 0 then BitVec.allOnes 64 else a.sdiv b
def divU (a b : BitVec 64) : BitVec 64 := if b = 0 then BitVec.allOnes 64 else a / b
/-- Signed remainder with the sign of sA; by zero sA; −2^63 rem −1 gives 0. -/
def remS (a b : BitVec 64) : BitVec 64 := if b = 0 then a else a.srem b
def remU (a b : BitVec 64) : BitVec 64 := if b = 0 then a else a % b
def mulHiS (a b : BitVec 64) : BitVec 64 := ((a.signExtend 128) * (b.signExtend 128)).extractLsb' 64 64
def mulHiU (a b : BitVec 64) : BitVec 64 := ((a.setWidth 128) * (b.setWidth 128)).extractLsb' 64 64
/-- The shift amount B′[5:0]. -/
def shAmt (b : BitVec 64) : Nat := b.toNat % 64
def popCount (a : BitVec 64) : Nat := (List.range 64).countP fun i => a.getLsbD i
def leadZeros (a : BitVec 64) : Nat := ((List.range 64).find? fun i => a.getLsbD (63 - i)).getD 64
def trailZeros (a : BitVec 64) : Nat := ((List.range 64).find? fun i => a.getLsbD i).getD 64

def execDyAdd (t : TileId) (w : DyWord) (s : State) : Out := dyRun 0x01 t w (scalarOp (· + ·) w) s
def execDySub (t : TileId) (w : DyWord) (s : State) : Out := dyRun 0x02 t w (scalarOp (· - ·) w) s
def execDyMul (t : TileId) (w : DyWord) (s : State) : Out := dyRun 0x03 t w (scalarOp (· * ·) w) s
def execDyMulh (t : TileId) (w : DyWord) (s : State) : Out := dyRun 0x04 t w (scalarOp mulHiS w) s
def execDyMulhu (t : TileId) (w : DyWord) (s : State) : Out := dyRun 0x05 t w (scalarOp mulHiU w) s
def execDyDiv (t : TileId) (w : DyWord) (s : State) : Out := dyRun 0x06 t w (scalarOp divS w) s
def execDyDivu (t : TileId) (w : DyWord) (s : State) : Out := dyRun 0x07 t w (scalarOp divU w) s
def execDyRem (t : TileId) (w : DyWord) (s : State) : Out := dyRun 0x08 t w (scalarOp remS w) s
def execDyRemu (t : TileId) (w : DyWord) (s : State) : Out := dyRun 0x09 t w (scalarOp remU w) s
def execDyAnd (t : TileId) (w : DyWord) (s : State) : Out := dyRun 0x0A t w (scalarOp (· &&& ·) w) s
def execDyOr (t : TileId) (w : DyWord) (s : State) : Out := dyRun 0x0B t w (scalarOp (· ||| ·) w) s
def execDyXor (t : TileId) (w : DyWord) (s : State) : Out := dyRun 0x0C t w (scalarOp (· ^^^ ·) w) s
def execDyShl (t : TileId) (w : DyWord) (s : State) : Out := dyRun 0x0D t w (scalarOp (fun a b => a <<< shAmt b) w) s
def execDyShr (t : TileId) (w : DyWord) (s : State) : Out := dyRun 0x0E t w (scalarOp (fun a b => a >>> shAmt b) w) s
def execDySra (t : TileId) (w : DyWord) (s : State) : Out := dyRun 0x0F t w (scalarOp (fun a b => a.sshiftRight (shAmt b)) w) s
def execDyMin (t : TileId) (w : DyWord) (s : State) : Out := dyRun 0x10 t w (scalarOp (fun a b => if a.slt b then a else b) w) s
def execDyMax (t : TileId) (w : DyWord) (s : State) : Out := dyRun 0x11 t w (scalarOp (fun a b => if a.slt b then b else a) w) s
def execDyMinu (t : TileId) (w : DyWord) (s : State) : Out := dyRun 0x12 t w (scalarOp (fun a b => if a.ult b then a else b) w) s
def execDyMaxu (t : TileId) (w : DyWord) (s : State) : Out := dyRun 0x13 t w (scalarOp (fun a b => if a.ult b then b else a) w) s
def execDySlt (t : TileId) (w : DyWord) (s : State) : Out := dyRun 0x14 t w (scalarOp (fun a b => bool64 (a.slt b)) w) s
def execDySltu (t : TileId) (w : DyWord) (s : State) : Out := dyRun 0x15 t w (scalarOp (fun a b => bool64 (a.ult b)) w) s
def execDySeq (t : TileId) (w : DyWord) (s : State) : Out := dyRun 0x16 t w (scalarOp (fun a b => bool64 (a == b)) w) s
def execDyLi (t : TileId) (w : DyWord) (s : State) : Out :=
  dyRun 0x17 t w (fun tl => if tl.busyS [w.d] then .hold else .go (tl.setS w.d (dyImm w))) s
def execDyLhi (t : TileId) (w : DyWord) (s : State) : Out :=
  dyRun 0x18 t w (fun tl => if tl.busyS [w.d] then .hold else .go (tl.setS w.d (w.low ++ (tl.sreg w.d).extractLsb' 0 32))) s
def execDyPopc (t : TileId) (w : DyWord) (s : State) : Out := dyRun 0x19 t w (scalarOp1 (fun a => BitVec.ofNat 64 (popCount a)) w) s
def execDyClz (t : TileId) (w : DyWord) (s : State) : Out := dyRun 0x1A t w (scalarOp1 (fun a => BitVec.ofNat 64 (leadZeros a)) w) s
def execDyCtz (t : TileId) (w : DyWord) (s : State) : Out := dyRun 0x1B t w (scalarOp1 (fun a => BitVec.ofNat 64 (trailZeros a)) w) s

/-- The elapsed CCLK that rdinfo answers: a free value, no less than it answered before and no more than the bound (R109, log 14). -/
def elapsedOf (r : Running) (x : Nat) : Nat := r.seen + x % (r.bound - r.seen + 1)

/-- rdinfo: 0 tile, 1 CCLK since start, 2 CCLK left of the bound, 3 C-die, 4 kernel handle. -/
def rdinfo (n : TileId) (x : Nat) (w : DyWord) (t : Tile) : TStep :=
  if t.busyS [w.d] then .hold
  else match t.run with
    | none => .hold
    | some r =>
      let e := elapsedOf r x
      match w.low.toNat with
      | 0 => .go (t.setS w.d (BitVec.ofNat 64 n.val))
      | 1 => .go ({ t with run := some { r with seen := e } }.setS w.d (BitVec.ofNat 64 e))
      | 2 => .go ({ t with run := some { r with seen := e } }.setS w.d (BitVec.ofNat 64 (r.bound - e)))
      | 3 => .go (t.setS w.d (BitVec.ofNat 64 (n.val / 64)))
      | _ => .go (t.setS w.d (r.item.handle.setWidth 64))

def execDyRdinfo (t : TileId) (w : DyWord) (s : State) : Out := dyRun 0x1C t w (rdinfo t s.free w) s.useFree
def execDyRdlc (t : TileId) (w : DyWord) (s : State) : Out :=
  dyRun 0x1D t w (fun tl => if tl.busyS [w.d] then .hold else .go (tl.setS w.d (tl.lc[w.low.toNat % 4].setWidth 64))) s

end Sys2Proof.Machine
end

