-- ==== Sys2Proof/Machine/Search.lean ====
section
/-! DEFINITION. The walk dispatcher, walks, and the ends of updates and sweeps (R195, R196, R198, R212–R216). -/
namespace Sys2Proof.Machine

/-! ### The dispatcher (R195, R196) -/

/-- Has the dispatcher of a B-die a wheel turn of the Stall to use, which is used up so (R196)? -/
def Serving.dispTurn (v : Serving) (d : Die) : Bool := v.dispTurns.contains d
def State.useDispTurn (s : State) (n : StallId) (d : Die) : State := s.modSrv n fun v => { v with dispTurns := v.dispTurns.filter (· ≠ d) }
/-- What the dispatcher reads for an entry: the code and the filter record, once. -/
def codeReads (x : Index) (e : Entry) : List (Nat × Nat) :=
  (Entry.field e 0 6, x.w / 8) :: if Entry.field e 0x10 6 = 0 then [] else [(Entry.field e 0x10 6, 80)]

/-- In a turn of the Stall the dispatcher of a B-die takes its oldest entry: it is discarded, refused, or its code and filter are read and its walks wait to start. The
entry stays in the queue until its last walk has started (R196). -/
def State.takeCode (s : State) (n : StallId) (d : Die) : State :=
  let v := s.serving[n]
  let f := vfOf n
  if !s.works n || s.halted || !v.dispTurn d || v.disps.any (fun y => y.die = d) then s
  else match v.queue d 1 with
    | [] => s
    | e :: _ =>
      let s := s.useDispTurn n d
      match v.req? e.tag with
      | none => (s.dropCode n d).count (some n) 0x039 1
      | some q =>
        if e.poison then (s.dropCode n d).failReq n e.tag { status := .poison, stage := 3 }
        else match s.codeRefused n e.e, v.index? (Entry.field e.e 6 2) with
          | some y, _ => s.refuseCode n d q.home e y.1 y.2
          | none, none => s
          | none, some x =>
            if !s.ready f (codeReads x e.e) [] then s.seek f d (codeReads x e.e) []
            else
              let ca := Entry.field e.e 0 6
              let fa := Entry.field e.e 0x10 6
              let s := s.noteReads f (codeReads x e.e) d
              let bad := s.poisoned f ca (x.w / 8) || (decide (fa ≠ 0) && s.poisoned f fa 80)
              let l := maskShards e.e
              let y : Dispatching := { die := d, entry := e.e, epoch := e.note, total := l.length, left := l, next := 0, code := s.readNat f ca (x.w / 8),
                                       clauses := if fa = 0 then [] else (s.filterOf f fa).getD [], poison := bad }
              let s := if bad then s.raise .src 0x1 else s
              s.modSrv n fun v => { v with disps := v.disps ++ [y] }
def execCodeEntryTake (n : StallId) (die : Die) (s : State) : Out := evs (fun s => s.takeCode n die) s

/-- A walk of a code queue entry as it starts: its entry points are to be entered. One whose code or filter is poisoned enters nothing (R201, R441). -/
def State.newWalk (s : State) (x : Index) (sh : Shard) (home : Die) (ctx : Nat) (i : Nat) (y : Dispatching) : Walk :=
  let w : Walk :=
    { ctx, die := sh.die, home, insert := none, entry := y.entry, walk := y.next, walks := y.total, index := x.handle, shard := i, epoch := y.epoch,
      ef := Entry.field y.entry 0x0E 2, r := Entry.field y.entry 0x16 2, limit := Entry.field y.entry 0x1C 2, clauses := y.clauses, code := y.code, queue := [], results := [],
      visited := [], todo := if y.poison then [] else sh.entries, fromAdj := false, req := .finished, flight := false, entered := false, expanded := 0, visits := 0,
      failed := [], flags := if y.poison then wfPoison else 0, began := s.now, held := none, prefetch := min 4 (Entry.field y.entry 0x1E 1 % 8), wanted := [], bufs := [] }
  w.go sh.cap

/-- The next walk of the entry being dispatched starts in a turn of the Stall, once the shard's B-die has a free context in its share; the code and the filter travel
there over the ring (R14, R196). -/
def State.startWalk (s : State) (n : StallId) (d : Die) : State :=
  let v := s.serving[n]
  if !s.works n || s.halted || !s.srcRun || !v.dispTurn d then s
  else match v.disps.find? fun y => y.die = d with
    | none => s
    | some y =>
      match y.left, v.index? (Entry.field y.entry 6 2), v.req? (queueTag 1 y.entry) with
      | i :: rest, some x, some q =>
        (match x.shards[i]? with
         | none => s
         | some sh =>
           match s.freeCtx n sh.die with
           | none => s
           | some ctx =>
             let s := (s.useDispTurn n d).modSrv n fun v => { v with walks := v.walks ++ [s.newWalk x sh q.home ctx i y] }
             let s := s.modMem fun m => { m with ring := crossRing m.ring d sh.die n.val (x.w / 8 + if y.clauses.isEmpty then 0 else 80) }
             if rest.isEmpty then (s.modSrv n fun v => { v with disps := v.disps.filter fun z => z.die ≠ d }).dropCode n d
             else s.modSrv n fun v => { v with disps := v.disps.map fun z => if z.die = d then { z with left := rest, next := z.next + 1 } else z })
      | _, _, _ => s
def execWalkStart (n : StallId) (die : Die) (s : State) : Out := ev (fun s => s.startWalk n die) s

/-- A memory request of the walk in a context returns (R198–R203). -/
def execWalkMemoryResponse (n : StallId) (die : Die) (ctx : Nat) (s : State) : Out := evs (fun s => s.walkResponse n die ctx) s

/-! ### Updates and sweeps (R212–R215) -/

/-- The first operation of a list that is ready to be applied. -/
def readyOp (ops : List UpdOp) : Option (Nat × UpdOp × List Cand × Bool) :=
  (List.range ops.length).findSome? fun i =>
    match ops[i]? with
    | some o => (match o.st with | .ready c p => some (i, o, c, p) | _ => none)
    | none => none

/-- An operation finishes and writes its result byte; the last one makes the update ready for publication. -/
def State.opDone (s : State) (n : StallId) : State :=
  let v := s.serving[n]
  match v.idxCmds.findSome? fun y => match y.run with
    | .update ops ores => (readyOp ops).map fun r => (y, ops, ores, r)
    | _ => none with
  | none => s
  | some (y, ops, ores, i, o, cands, bad) =>
    match v.index? y.handle with
    | none => s
    | some x =>
      let out := [(ores + i, 1)]
      if !s.ready (vfOf n) [] out then s.seek (vfOf n) 0 [] out
      else
        let a := s.applyOp n x { o with poison := o.poison || bad } cands
        let s := a.1.writeNat (vfOf n) (ores + i) 1 a.2
        let ops := setOp ops i .done
        s.modSrv n fun v => v.modIdxCmd y.cmd (if ops.all (fun o => o.st.isDone) then .applied else .update ops ores)
def execUpdateOpDone (n : StallId) (s : State) : Out := evs (fun s => s.opDone n) s

/-- A sweep whose steps on its shard are over goes on to the next one, at the E_min of that moment, and ends with its last (R214). -/
def State.sweepDone (s : State) (n : StallId) : State :=
  let v := s.serving[n]
  match v.idxCmds.findSome? fun y => match y.run with
    | .sweep r => (match (v.index? y.handle).bind fun x => x.shards[r.shard]? with | some sh => if sh.sweepSteps ≤ r.at_ then some (y, r) else none | none => none)
    | _ => none with
  | none => s
  | some (y, r) =>
    match r.left, v.index? y.handle with
    | j :: rest, some x => s.modSrv n fun v => v.modIdxCmd y.cmd (.sweep { r with shard := j, emin := v.eMin x, left := rest, ctx := none, at_ := 0 })
    | _, _ => (s.modSrv n fun v => { v with idxCmds := v.idxCmds.filter fun z => z.cmd ≠ y.cmd }).finish y.cmd .ok r.freed r.later
def execSweepDone (n : StallId) (s : State) : Out := evs (fun s => s.sweepDone n) s

/-- SRC_CTRL.RUN (R216). -/
def execSrcCtrlRun (v : BitVec 32) (s : State) : Out := evls (fun s => s.setReg .src 0x000 (v &&& 1)) s

end Sys2Proof.Machine
end

