-- ==== Sys2Proof/Machine/Serving.lean ====
section
/-! DEFINITION. The serving control logic's own steps: dispatches that wait, trigger batches, the generation scheduler, adapters (R19, R127, R304–R317). -/
namespace Sys2Proof.Machine

/-! ### Waiting batches and adapters -/

/-- The oldest batch that waits for room in the inbox of a die is placed whole once it has room (R127). -/
def State.placeWaiting (s : State) (n : StallId) (d : Die) : State :=
  match (s.serving[n]).batches.find? fun b => b.waiting && decide (b.die = d) with
  | some b => s.placeBatch n b.num
  | none => s
def execDispatchPlace (n : StallId) (die : Die) (s : State) : Out := evs (fun s => s.placeWaiting n die) s
def execAdpVersionRelease (n : StallId) (a : AdapterId) (s : State) : Out := evs (fun s => s.releaseAdapter n a.num a.model) s

/-! ### Trigger batches (R304) -/

/-- Has an open slot of the Stall on the die at least a bound left? -/
def State.slotFits (s : State) (n : StallId) (d : Die) (bound : Nat) : Bool := (s.openSlots n d).any fun e => decide (bound ≤ s.cclkLeft (s.slotEnd e))
/-- The trigger slot of a stage number 2, 4 or 6. -/
def trigSlot (stage : Nat) : Option Nat := if stage = 2 then some 0 else if stage = 4 then some 1 else if stage = 6 then some 2 else none
def Serving.trigRunning (v : Serving) (d : Die) (i : Nat) : Bool := v.batches.any fun b => decide (b.die = d) && (match b.kind with | .trigger k => decide (k = i) | _ => false)
def oldestSince (l : List QEntry) : Option Nat := match l with | [] => none | e :: es => some (es.foldl (fun m x => min m x.since) e.since)

/-- Place the trigger batch of a stage on a die when its conditions hold. An entry whose HANDLE names no loaded kernel places none (R303, log 21). -/
def State.trigPlace (s : State) (n : StallId) (d : Die) (stage : Nat) : State :=
  match trigSlot stage with
  | none => s
  | some i =>
    let v := s.serving[n]
    let t := v.keep.cfg.trig.getD i Trig.none
    let q := v.queue d (2 * i)
    let due := match oldestSince q with | some x => decide (t.min ≤ q.length) || decide (x + t.maxWait * usBclk ≤ s.now) | none => false
    if (v.kernel? t.handle).isNone ∨ !s.works n ∨ !due ∨ v.trigRunning d i ∨ !s.slotFits n d (v.bound t.handle) then s
    else
      let roots := (List.range t.items).map fun j => (t.handle, t.wide, [stage, q.length, 0, j, t.items, 0, 0, 0].map (BitVec.ofNat 64))
      let x := s.newBatch n d (.trigger i) roots t.retry []
      x.1.placeBatch n x.2
def execTriggerBatchPlace (n : StallId) (die : Die) (stage : Fin 8) (s : State) : Out := evs (fun s => s.trigPlace n die stage.val) s
/-- The oldest entry of the stage has waited MAXWAIT. -/
def State.trigExpiry (s : State) (n : StallId) (d : Die) (stage : Nat) : State :=
  match trigSlot stage with
  | none => s
  | some i => match oldestSince ((s.serving[n]).queue d (2 * i)) with
    | some x => (s.until (x + ((s.serving[n]).keep.cfg.trig.getD i Trig.none).maxWait * usBclk)).trigPlace n d stage
    | none => s
def execTriggerMaxwaitExpiry (n : StallId) (die : Die) (stage : Fin 8) (s : State) : Out := evs (fun s => s.trigExpiry n die stage.val) s

/-! ### Prompts (R307, R312–R315) -/

def ceil64 (x : Nat) : Nat := (x + 63) / 64
/-- Where a sequence's page table lies. -/
def Serving.ptAddr (v : Serving) (q : Request) : Nat := v.keep.cfg.pt + q.seq * 16384
/-- The pages of a sequence's handle. -/
def Serving.handlePages (v : Serving) (q : Request) : List Nat := match q.handle.bind fun h => v.handles.find? fun x => x.id = h with | some h => h.pages | none => []
/-- The page table of a sequence at its start: the ready handle's pages, then none, then the seed. -/
def ptBytes (pages : List Nat) (seed : BitVec 64) : List Byte :=
  (pages ++ List.replicate (2049 - pages.length) 0xFFFFFFFF).flatMap (toBytesLE 4) ++ List.replicate 0x1FF4 0 ++ toBytesLE 8 seed.toNat

/-- Free idle handles of a model, least recently mapped first, until `need` pages are free (R315). -/
def Serving.freeIdle (v : Serving) (m need keepId : Nat) : Nat → Serving
  | 0 => v
  | k + 1 =>
    if need ≤ v.kvFree m then v
    else
      let idle := v.handles.filter fun h => h.key.model = m && h.mapped.isEmpty && h.ready && decide (h.id ≠ keepId)
      match idle with
      | [] => v
      | h :: hs =>
        let old := hs.foldl (fun (a b : PfxHandle) => if b.usedAt < a.usedAt then b else a) h
        { v with handles := v.handles.filter fun x => x.id ≠ old.id }.freeIdle m need keepId k

/-- Take a prompt for a generator: limits, handle, reservation and page table; the state unchanged while it must wait. -/
def State.takePrompt (s : State) (n : StallId) (d : Die) (rest : List QEntry) (q : Request) (m len pfx at_ : Nat) : State :=
  let v := s.serving[n]
  let drop := fun (s : State) => s.modSrv n fun v => v.setQueue d 6 rest
  let maxOut := min q.maxNew (131072 - len)
  if maxOut = 0 then (drop s).failReq n q.tag { status := .promptTooLong, stage := 8 }
  else
    let key := v.pfxKey q m
    let found := if pfx = 0 then none else v.handles.find? fun h => h.key = key && !h.dropped
    let own := ceil64 (len + maxOut - pfx)
    -- Another prompt that waits with this key is to build the handle (R315).
    let heir := decide (pfx ≠ 0) && found.isNone && v.heirs.contains key && (oldestEntry (v.keyWaits key)).any fun e => e.tag ≠ q.tag
    if heir || found.any (fun h => !h.ready) then s
    else if !s.ready (vfOf n) [] [(v.ptAddr q, 16384)] then s.seek (vfOf n) d [] [(v.ptAddr q, 16384)]
    else
      let build := decide (pfx ≠ 0) && found.isNone
      let need := own + (if build then ceil64 pfx else 0)
      let keepId := match found with | some h => h.id | none => v.nextPfx
      let v' := v.freeIdle m need keepId v.handles.length
      if v'.kvFree m < need ∨ (build ∧ 1024 ≤ v'.handles.length) then s.modSrv n fun _ => v'
      else
        let hs := match found with
          | some h => v'.handles.map fun x => if x.id = h.id then { x with mapped := x.mapped ++ [q.tag], usedAt := s.now } else x
          | none => if build then v'.handles ++ [{ id := v.nextPfx, key, len := pfx, pages := [], ready := false, mapped := [q.tag], usedAt := s.now, dropped := false }] else v'.handles
        let q' := { q with phase := .prefill, stage := 8, promptLen := len, prefixLen := pfx, promptAt := at_, pfx, pos := if found.isSome then pfx else 0, maxOut, reserve := need, pages := [],
                           handle := if found.isSome ∨ build then some keepId else none, builder := build, notes := if found.isSome then q.notes ||| 0x4000 else q.notes }
        let s := s.modSrv n fun _ => ({ v' with handles := hs, heirs := if build then v'.heirs.filter (· ≠ key) else v'.heirs, nextPfx := if build then v.nextPfx + 1 else v.nextPfx }.modReq q.tag fun _ => q').setQueue d 6 rest
        let s := s.writeMem (vfOf n) (v.ptAddr q) (ptBytes (match found with | some h => h.pages | none => []) q.seed) d
        if found.isSome then s.count (some n) 0x016 1 else s

/-- The oldest prompt entry of a die's share (R307): taken in order, and none is passed over. -/
def State.promptTake (s : State) (n : StallId) (d : Die) : State :=
  let v := s.serving[n]
  match v.queue d 6 with
  | [] => s
  | e :: rest =>
    let drop := s.modSrv n fun v => v.setQueue d 6 rest
    match v.req? e.tag with
    | none => drop
    | some q =>
      if q.cancelled ∨ q.dispatch ∨ (q.phase ≠ .early ∧ q.phase ≠ .prompt) then drop
      else if e.poison then drop.failReq n e.tag { status := .poison, stage := 8 }
      else match v.reqModel q with
        | none => drop.endRequest n e.tag
        | some m => s.takePrompt n d rest q m (Entry.field e.e 0x10 4) (Entry.field e.e 0x14 4) (Entry.field e.e 8 6)
def execPromptTake (n : StallId) (die : Die) (s : State) : Out := evs (fun s => s.promptTake n die) s

/-! ### Generation batches (R308–R311) -/

/-- A row being offered: its request, kind, position, tokens and step. -/
structure Offer where
  q      : Request
  decode : Bool
  pos    : Nat
  ntok   : Nat
  step   : Nat
deriving DecidableEq, Repr

/-- Sequences in rotation from after a SEQ_ID. -/
def rotate (last : Nat) (l : List Request) : List Request :=
  let sorted := l.foldr (insertByEnd fun q => q.seq) []
  sorted.filter (fun q => decide (last < q.seq)) ++ sorted.filter fun q => decide (q.seq ≤ last)
/-- Tokens that a budget covers. -/
def covers (left : Word) (k : Nat) : Bool := left = 0xFFFFFFFF || decide (k ≤ left.toNat)
def coverMax (left : Word) (k : Nat) : Nat := if left = 0xFFFFFFFF then k else min k left.toNat

/-- Budgets while a batch is filled: the Stall's, and what each client has left. -/
structure Purse where
  stall   : Word
  clients : List (Nat × Word)
deriving DecidableEq, Repr
def Purse.of (p : Purse) (c : Nat) : Word := match p.clients.find? fun x => x.1 = c with | some x => x.2 | none => 0xFFFFFFFF
def Purse.pay (p : Purse) (c k : Nat) : Purse := { stall := tokensLeft p.stall k, clients := p.clients.map fun x => if x.1 = c then (x.1, tokensLeft x.2 k) else x }

/-- What filling a batch has come to: rows in the order included, the purse, prefill tokens, rows left out for want of budget, and whether prefill rows still fit. -/
structure Filling where
  rows  : List Offer
  purse : Purse
  pre   : Nat
  waits : Nat
  more  : Bool
deriving DecidableEq, Repr

def Filling.decode (f : Filling) (q : Request) : Filling :=
  if 4096 ≤ f.rows.length then f
  else if covers f.purse.stall 1 && covers (f.purse.of q.client) 1 then
    { f with rows := f.rows ++ [⟨q, true, q.promptLen + q.step - 1, 1, q.step + 1⟩], purse := f.purse.pay q.client 1 }
  else { f with waits := f.waits + 1 }
/-- A prefill row: min(CHUNK, tokens left), cut to the largest multiple of 64 that the budgets cover, left out below 64. -/
def Filling.prefill (chunk most : Nat) (f : Filling) (q : Request) : Filling :=
  let k := min chunk (q.promptLen - q.pos)
  if !f.more ∨ 4096 ≤ f.rows.length then f
  else if most < f.pre + k then { f with more := false }
  else
    let c := coverMax (f.purse.of q.client) (coverMax f.purse.stall k)
    let k' := if c = k then k else c / 64 * 64
    if k' = 0 then { f with waits := f.waits + 1 }
    else { f with rows := f.rows ++ [⟨q, false, q.pos, k', if q.pos + k' = q.promptLen then 1 else 0⟩], purse := f.purse.pay q.client k', pre := f.pre + k' }

/-- Fill a batch of a model on a die (R309). -/
def Serving.fill (v : Serving) (d : Die) (m chunk most : Nat) : Filling :=
  let busy := fun (q : Request) => v.batches.any fun b => b.tags.contains q.tag
  let seqs := rotate (mapGet 4096 v.rotation (m * 4 + d.val)) (v.requests.filter fun q =>
    decide (q.home = d) && !q.cancelled && !q.dispatch && decide (v.reqModel q = some m) && (q.phase = .prefill || q.phase = .decode) && !busy q)
  let f0 : Filling := { rows := [], purse := { stall := v.left, clients := v.keep.clients.map fun (c : Client) => (c.id, c.left) }, pre := 0, waits := 0, more := true }
  let f1 := (seqs.filter fun q => q.phase = .decode && q.ready).foldl Filling.decode f0
  (seqs.filter fun q => q.phase = .prefill).foldl (Filling.prefill chunk most) f1

/-- Adapter and version of a row, as its order and its fields name them. -/
def Offer.adp (o : Offer) : Nat × Nat := match o.q.adapter with | some x => x | none => (0xFFFF, 0)
/-- Rows in ascending (ADAPTER, ADP_VER), decode rows before prefill rows, in offer order. -/
def Offer.before (a b : Offer) : Bool :=
  let k := fun (o : Offer) => (o.adp.1 * 2 ^ 32 + o.adp.2) * 2 + (if o.decode then 0 else 1)
  decide (k a ≤ k b)
def insertOffer (x : Offer) : List Offer → List Offer
  | [] => [x]
  | y :: ys => if x.before y then x :: y :: ys else y :: insertOffer x ys

/-- A free page of a model's pool: the device's choice (log 3). -/
def State.freePage (s : State) (n : StallId) (m : Nat) : Nat :=
  let used := (s.serving[n]).kvUsed m
  let total := (s.serving[n]).kvTotal m
  (((List.range (used.length + 1)).map fun i => (s.free + i) % total).find? fun p => !used.contains p).getD 0

/-- Take the page of one page-table entry from the sequence's reservation, when it has none yet (R310, R312, R313). -/
def State.takePage (s : State) (n : StallId) (m : Nat) (tag : Word) (e : Nat) : State :=
  let v := s.serving[n]
  match v.req? tag with
  | none => s
  | some q =>
    let sh := ceil64 q.pfx
    let have_ := if e < sh then (v.handlePages q).length else sh + q.pages.length
    if e < have_ then s
    else
      let p := s.freePage n m
      let s := s.useFree.modSrv n fun v =>
        let v := v.modReq tag fun q => { q with reserve := q.reserve - 1, pages := if e < sh then q.pages else q.pages ++ [p] }
        if e < sh then { v with handles := v.handles.map fun h => if some h.id = q.handle then { h with pages := h.pages ++ [p] } else h } else v
      (s.writeMem (vfOf n) (v.ptAddr q + 4 * e) (toBytesLE 4 p)).count (some n) 0x017 1
/-- The page-table entry of a position. -/
def Request.entryOf (q : Request) (p : Nat) : Nat := if p < q.pfx then p / 64 else ceil64 q.pfx + (p - q.pfx) / 64
/-- Every page covering a row's positions is present. -/
def State.takePages (s : State) (n : StallId) (m : Nat) (o : Offer) : State :=
  let last := o.q.entryOf (o.pos + o.ntok - 1)
  (List.range (last + 1 - o.q.entryOf o.pos)).foldl (fun s i => s.takePage n m o.q.tag (o.q.entryOf o.pos + i)) s

/-- The bytes of a step table row (Table 12.10). -/
def Serving.rowBytes (v : Serving) (o : Offer) : List Byte :=
  let q := o.q
  let area := match q.adapter with
    | some (a, ver) => (match v.keep.adapters.find? fun x => x.id = a && some x.model = v.reqModel q with | some x => if x.ver = ver then x.addr else x.oldAddr | none => 0)
    | none => 0
  toBytesLE 4 q.tag.toNat ++ toBytesLE 2 q.seq ++ toBytesLE 1 (if o.decode then 2 else 1) ++ toBytesLE 1 0 ++ toBytesLE 4 o.pos ++ toBytesLE 4 o.ntok ++
    toBytesLE 8 (if o.decode then 0 else q.promptAt + 4 * o.pos) ++ toBytesLE 4 (if o.decode then q.last.toNat else 0) ++ toBytesLE 4 o.step ++ toBytesLE 8 (v.ptAddr q) ++
    toBytesLE 2 q.pfx ++ toBytesLE 2 o.adp.1 ++ toBytesLE 4 o.adp.2 ++ toBytesLE 8 area ++ toBytesLE 4 q.temp.toNat ++ toBytesLE 2 q.topK ++
    toBytesLE 2 ((if (v.reqGrammar q).isSome then 1 else 0) + (if q.sample then 2 else 0))

/-- Generation batch slots in use. -/
def Serving.genSlots (v : Serving) : List Nat := v.batches.filterMap fun b => match b.kind with | .gen _ j => some j | _ => none
def Serving.genRunning (v : Serving) (d : Die) (m : Nat) : Bool := v.batches.any fun b => decide (b.die = d) && (match b.kind with | .gen k _ => decide (k = m) | _ => false)

/-- Place a generation batch of a model on a die when the conditions of R308 hold and a row is ready. -/
def State.genPlace (s : State) (n : StallId) (d : Die) (m : Nat) : State :=
  let v := s.serving[n]
  match v.model? m with
  | none => s
  | some r =>
    let u := bytesField r.bytes
    let h := BitVec.ofNat 16 (u 4 2)
    if u 0 1 ≠ 1 ∨ v.genRunning d m ∨ !s.slotFits n d (v.bound h) then s
    else match s.pick (freeNumbers 16 fun j => v.genSlots.contains j) with
      | none => s
      | some j =>
        let f := v.fill d m (u 0x20 4) (u 0x24 4)
        let s := if f.waits = 0 then s else s.count (some n) 0x015 f.waits
        match f.rows.getLast? with
        | none => s
        | some last =>
          let rows := f.rows.foldr insertOffer []
          let table := [(v.rowAddr j 0, 64 * rows.length)]
          if !s.ready (vfOf n) [] table then s.seek (vfOf n) d [] table
          else
          let s := s.useFree.modSrv n fun v => { v with rotation := mapSet 4096 v.rotation (m * 4 + d.val) last.q.seq }
          let s := rows.foldl (fun s o => s.takePages n m o) s
          let s := rows.foldl (fun s o => s.modReq n o.q.tag fun q => { q with ready := false, stage := if o.decode then 9 else 8 }) s
          let base := (s.serving[n]).rowAddr j 0
          let s := (List.zip (List.range rows.length) rows).foldl (fun s x => s.writeMem (vfOf n) (base + 64 * x.1) ((s.serving[n]).rowBytes x.2) d) s
          let gr := rows.map fun o => ({ tag := o.q.tag, decode := o.decode, pos := o.pos, ntok := o.ntok, step := o.step, pushed := false } : GenRow)
          let args := fun (i : Nat) => [base, rows.length, m, i, u 2 2, u 8 8, u 0x10 8, u 0x1C 4].map (BitVec.ofNat 64)
          let x := s.newBatch n d (.gen m j) ((List.range (u 2 2)).map fun i => (h, BitVec.ofNat 16 (u 6 2), args i)) (u 1 1) gr
          (gr.foldl (fun s r => s.chargeRow n r) x.1).placeBatch n x.2
def execGenBatchPlace (n : StallId) (die : Die) (model : Nat) (s : State) : Out := evs (fun s => s.genPlace n die model) s

/-! ### Entries held for a full share (R19) -/

def State.retryHeld (s : State) (n : StallId) (d : Die) : State :=
  let s := s.retryRefusal n d
  let s := ((s.serving[n]).walks.filter fun w => w.die = d).foldl (fun s w => match w.held with | some e => s.postWalk n w e false | none => s) s
  let s := ((s.serving[n]).jobs.filter fun j => j.die = d).foldl (fun s j => match j.held with | some e => s.postGather n j e false | none => s) s
  ((s.serving[n]).text.filter fun j => decide (j.die = d) && !j.held.isEmpty).foldl (fun s j => s.pushHeld n j.id d false j.held) s
def execEngineHoldRetry (n : StallId) (die : Die) (s : State) : Out := evs (fun s => s.retryHeld n die) s

end Sys2Proof.Machine
end

