-- ==== Sys2Proof/Machine/TopK.lean ====
section
/-! DEFINITION. Selection with cream and whey: vsortkv, vmergekv, topk and tkmerge (R100, R101, R217–R234). -/
namespace Sys2Proof.Machine

/-- An entry: the value's 32 bits (BF16 widened, R218) and its U32 index. -/
abbrev SelEntry := BitVec 32 × BitVec 32

def isI32 (ty : BitVec 4) : Bool := ty.toNat = 4

/-- Value order of R218: NaNs are equal and lie below −∞, −0 equals +0. -/
def valGt (ty : BitVec 4) (x y : BitVec 32) : Bool :=
  if isI32 ty then y.slt x
  else if (f32 x).isNan then false else if (f32 y).isNan then true else fltLt (f32 y) (f32 x)
def valEq (ty : BitVec 4) (x y : BitVec 32) : Bool :=
  if isI32 ty then x == y else ((f32 x).isNan && (f32 y).isNan) || fltEq (f32 x) (f32 y)
/-- Entry a precedes entry b (R217). -/
def precedes (ty : BitVec 4) (a b : SelEntry) : Bool := valGt ty a.1 b.1 || (valEq ty a.1 b.1 && a.2.ult b.2)

def insertBy {α : Type} (lt : α → α → Bool) (x : α) : List α → List α
  | [] => [x]
  | y :: ys => if lt x y then x :: y :: ys else y :: insertBy lt x ys
/-- Sort by insertion. -/
def sortBy {α : Type} (lt : α → α → Bool) : List α → List α
  | [] => []
  | x :: xs => insertBy lt x (sortBy lt xs)
def sortedBy {α : Type} (lt : α → α → Bool) : List α → Bool
  | x :: y :: r => !lt y x && sortedBy lt (y :: r)
  | _ => true

/-- Selection order. Entries equal in value and in index may still differ in bits; R217 does not order them, and they stand in a free order (log 13). -/
def selSort (ty : BitVec 4) (l : List SelEntry) : List SelEntry :=
  (sortBy (fun a b => precedes ty a.2 b.2 || (!precedes ty b.2 a.2 && decide (a.1 < b.1))) (List.zip ((List.range l.length).map (Config.tieRank l)) l)).map (·.2)

/-- The 64 pairs of two registers. -/
def pairsOf (v i : BitVec 2048) : List SelEntry := (List.range 64).map fun k => (BitVec.ofNat 32 (lane v 32 k), BitVec.ofNat 32 (lane i 32 k))
def regOf (l : List (BitVec 32)) : BitVec 2048 := BitVec.ofNat 2048 (packLanes 32 (l.map BitVec.toNat))
def Tile.setPairs (t : Tile) (rv ri : BitVec 5) (l : List SelEntry) : Tile := (t.setV rv (regOf (l.map (·.1)))).setV ri (regOf (l.map (·.2)))

def vsortkvOp (w : DyWord) (t : Tile) : TStep :=
  if t.busyV [w.d.toNat, w.a.toNat] then .hold else .go (t.setPairs w.d w.a (selSort w.t (pairsOf (t.vreg w.d) (t.vreg w.a))))

/-- The merged 128 pairs: in selection order when both lists are; otherwise the same pairs in a free order (R220). -/
def mergedPairs (ty : BitVec 4) (x y : List SelEntry) : List SelEntry :=
  if sortedBy (precedes ty) x && sortedBy (precedes ty) y then selSort ty (x ++ y)
  else ((sortBy (fun a b => decide (a.1 < b.1)) (List.zip ((List.range 128).map (Config.mergeRank (x ++ y))) (x ++ y)))).map (·.2)

def vmergekvOp (w : DyWord) (t : Tile) : TStep :=
  if t.busyV [w.d.toNat, w.a.toNat, w.b.toNat, (DyC w).toNat] then .hold
  else
    let l := mergedPairs w.t (pairsOf (t.vreg w.d) (t.vreg w.a)) (pairsOf (t.vreg w.b) (t.vreg (DyC w)))
    .go ((t.setPairs w.d w.a (l.take 64)).setPairs w.b (DyC w) (l.drop 64))

/-- A sum of values: exact and rounded once for floats, NaNs left out (R227); modulo 2^64 for I32 (R228). -/
def selSum (ty : BitVec 4) (l : List (BitVec 32)) : BitVec 64 :=
  if isI32 ty then l.foldl (fun a x => a + x.signExtend 64) 0
  else
    match (l.map f32).filter (fun v => !v.isNan) with
    | [] => 0
    | v :: vs => (toF32 (vs.foldl fadd v)).setWidth 64

/-- What a selection writes: flags, count, considered, duplicates, sums, entries. -/
structure Selection where
  flags : BitVec 64
  count : Nat
  considered : Nat
  dups  : Nat
  cream : BitVec 64
  whey  : BitVec 64
  wheyIn : BitVec 64
  sel   : List SelEntry
deriving DecidableEq, Repr

/-- Select the first K of a set of entries (R225–R228, R231). -/
def select (ty : BitVec 4) (k : Nat) (es : List SelEntry) (dups : Nat) (conflict : Bool) (wheyIn : BitVec 64) : Selection :=
  let l := sortBy (precedes ty) es
  let sel := l.take k
  let out := l.drop k
  let tied : Nat := match sel.getLast? with
    | some x => if k < l.length then out.countP (fun y => valEq ty x.1 y.1) else 0
    | none => 0
  let flags := (if sel.length < k then 1 else 0) + (if 0 < tied then 2 else 0) + (if conflict then 4 else 0) + (min tied 2047) * 2 ^ 16
  { flags := BitVec.ofNat 64 flags, count := sel.length, considered := l.length, dups, cream := selSum ty (sel.map (·.1)),
    whey := selSum ty (out.map (·.1)), wheyIn, sel }

/-- The fill value of a type (R223). -/
def fillValue (ty : BitVec 4) : BitVec 32 := if isI32 ty then 0x80000000 else 0xFF800000

/-- Write a selection record of length K (Table 9.1). -/
def Tile.writeRecord (t : Tile) (ty : BitVec 4) (b k : Nat) (x : Selection) : Tile :=
  let n := pad16 k
  let fill := n - x.sel.length
  let t := t.write (b + 0x10) (toBytesLE 4 x.flags.toNat ++ toBytesLE 2 x.count ++ toBytesLE 2 k ++ toBytesLE 4 x.considered ++ toBytesLE 4 x.dups ++
    toBytesLE 8 0 ++ toBytesLE 8 x.cream.toNat ++ toBytesLE 8 x.whey.toNat ++ toBytesLE 8 x.wheyIn.toNat)
  t.write (b + 0x40) (((x.sel.map (·.1)) ++ List.replicate fill (fillValue ty)).flatMap (fun (v : BitVec 32) => toBytesLE 4 v.toNat) ++
    ((x.sel.map (·.2)) ++ List.replicate fill (0xFFFFFFFF : BitVec 32)).flatMap (fun (v : BitVec 32) => toBytesLE 4 v.toNat))

/-- v24–v31 are working registers, left zero (R101). -/
def Tile.clearWork (t : Tile) : Tile := (List.range 8).foldl (fun t i => t.setV (BitVec.ofNat 5 (24 + i)) 0) t

def topkOp (w : DyWord) (t : Tile) : TStep :=
  let a := (t.sreg w.a).toNat
  let b := (t.sreg w.b).toNat
  let c := (t.sreg (DyC w)).toNat
  let n := c % 2 ^ 17
  let k := c / 2 ^ 32 % 2 ^ 11
  let ibase := c / 2 ^ 48 % 2 ^ 15
  let size := if tyWide w.t then 2 else 4
  if t.busyS [w.d, w.a, w.b, DyC w] || t.busyV workRegs then .hold
  else if k = 0 ∨ 1024 < k ∨ n = 0 then .fault .operand 0
  else if 65536 < n then .go ((t.clearWork).setS w.d 8)
  else if a % 64 ≠ 0 ∨ b % 64 ≠ 0 then .fault .align 0
  else if !tsOk a (n * size) || !tsOk b (recordBytes k) then .fault .tsRange 0
  else if overlapRange a (n * size) b (recordBytes k) then .fault .operand 0
  else if t.marked a (n * size) then .part (t.leaveRecord b k) .poison 0
  else
    let es := (List.range n).map fun i =>
      let x := ofBytesLE (t.read (a + size * i) size)
      (BitVec.ofNat 32 (if tyWide w.t then x * 65536 else x), BitVec.ofNat 32 (ibase * 65536 + i))
    let r := select w.t k es 0 false 0
    .go (((t.writeRecord w.t b k r).clearWork).setS w.d r.flags)
where
  overlapRange (x n y m : Nat) : Bool := decide (x < y + m) && decide (y < x + n)

/-- Keep the first of each index in selection order; count what is removed and whether a removed value differs (R230). -/
def dedup (ty : BitVec 4) : List SelEntry → List SelEntry × Nat × Bool
  | [] => ([], 0, false)
  | x :: xs =>
    let (kept, n, c) := dedup ty xs
    -- `xs` comes later in selection order; drop its entries with the index of `x`
    let same := kept.filter fun y => y.2 = x.2
    (x :: kept.filter (fun y => y.2 ≠ x.2), n + same.length, c || same.any fun y => !valEq ty x.1 y.1)

/-- tkmerge: of a record it reads the header's block and the entries that COUNT gives (Table 9.1), so a mark on another block is never met (R232). -/
def tkmergeOp (w : DyWord) (t : Tile) : TStep :=
  let a := (t.sreg w.a).toNat
  let b := (t.sreg w.b).toNat
  let c := (t.sreg (DyC w)).toNat
  let k := c % 2 ^ 11
  let l := c / 2 ^ 16 % 2 ^ 11
  let m := c / 2 ^ 32 % 2 ^ 9
  let rb := recordBytes l
  if t.busyS [w.d, w.a, w.b, DyC w] || t.busyV workRegs then .hold
  else if k = 0 ∨ 1024 < k ∨ l = 0 ∨ 1024 < l ∨ m = 0 ∨ 256 < m then .fault .operand 0
  else if a % 64 ≠ 0 ∨ b % 64 ≠ 0 then .fault .align 0
  else if !tsOk a (m * rb) || !tsOk b (recordBytes k) then .fault .tsRange 0
  else if topkOp.overlapRange a (m * rb) b (recordBytes k) then .fault .operand 0
  else
    let recs := (List.range m).map fun i => a + i * rb
    let count := fun r => min (ofBytesLE (t.read (r + 0x14) 2)) l
    if recs.any fun r => t.marked r 64 || t.markedSome (r + 0x40) (4 * count r) || t.markedSome (r + 0x40 + 4 * pad16 l) (4 * count r) then .part (t.leaveRecord b k) .poison 0
    else
    let es := recs.flatMap fun r =>
      (List.range (count r)).map fun i => (t.loadWord (r + 0x40 + 4 * i), t.loadWord (r + 0x40 + 4 * pad16 l + 4 * i))
    let d := dedup w.t (selSort w.t es)
    let sums := recs.flatMap fun r => [ofBytesLE (t.read (r + 0x30) 8), ofBytesLE (t.read (r + 0x38) 8)]
    let wheyIn := if isI32 w.t then sums.foldl (fun x v => x + BitVec.ofNat 64 v) 0 else selSum w.t (sums.map (BitVec.ofNat 32))
    let r := select w.t k d.1 d.2.1 d.2.2 wheyIn
    .go (((t.writeRecord w.t b k r).clearWork).setS w.d r.flags)

def execDyVsortkv (t : TileId) (w : DyWord) (s : State) : Out := dyRun 0xB0 t w (vsortkvOp w) s
def execDyVmergekv (t : TileId) (w : DyWord) (s : State) : Out := dyRun 0xB1 t w (vmergekvOp w) s
def execDyTopk (t : TileId) (w : DyWord) (s : State) : Out := dyRun 0xB2 t w (topkOp w) s
def execDyTkmerge (t : TileId) (w : DyWord) (s : State) : Out := dyRun 0xB3 t w (tkmergeOp w) s

end Sys2Proof.Machine
end

