-- ==== Sys2Proof/Machine/Dispatch.lean ====
section
/-! DEFINITION. One arm per command: its meaning, called directly. -/
namespace Sys2Proof.Machine

def exec (i : Instr) (s : State) : Host.Outcome State Fault Refusal :=
  match i with
  | .registerWrite f off w more => Sys2Proof.Machine.execRegisterWrite f off w more s
  | .statusRegisterClear f off v ev late => Sys2Proof.Machine.execStatusRegisterClear f off v ev late s
  | .glbLockWrite v => Sys2Proof.Machine.execGlbLockWrite v s
  | .lowHalfRead f x => Sys2Proof.Machine.execLowHalfRead f x s
  | .splitValueWrite f off v => Sys2Proof.Machine.execSplitValueWrite f off v s
  | .glbResetWarm => Sys2Proof.Machine.execGlbResetWarm s
  | .glbResetStall stalls => Sys2Proof.Machine.execGlbResetStall stalls s
  | .freshen n => Sys2Proof.Machine.execFreshen n s
  | .dryDrain n => Sys2Proof.Machine.execDryDrain n s
  | .dryCut n => Sys2Proof.Machine.execDryCut n s
  | .abort n => Sys2Proof.Machine.execAbort n s
  | .imageLoadDone n poison => Sys2Proof.Machine.execImageLoadDone n poison s
  | .freshenCleanupDone n => Sys2Proof.Machine.execFreshenCleanupDone n s
  | .drainLimitReached n => Sys2Proof.Machine.execDrainLimitReached n s
  | .dryTileSaveDone n => Sys2Proof.Machine.execDryTileSaveDone n s
  | .dryWritebackDone n => Sys2Proof.Machine.execDryWritebackDone n s
  | .dryScrubDone n => Sys2Proof.Machine.execDryScrubDone n s
  | .chnRunSet => Sys2Proof.Machine.execChnRunSet s
  | .chnRunClear => Sys2Proof.Machine.execChnRunClear s
  | .churnBoundary x => Sys2Proof.Machine.execChurnBoundary x s
  | .slotOpen e => Sys2Proof.Machine.execSlotOpen e s
  | .slotEnd e => Sys2Proof.Machine.execSlotEnd e s
  | .switchComplete row => Sys2Proof.Machine.execSwitchComplete row s
  | .wheelTurn r => Sys2Proof.Machine.execWheelTurn r s
  | .commonsTurn => Sys2Proof.Machine.execCommonsTurn s
  | .tileTakeItem l => Sys2Proof.Machine.execTileTakeItem l s
  | .tileSearchTimer t => Sys2Proof.Machine.execTileSearchTimer t s
  | .dyAdd t w => Sys2Proof.Machine.execDyAdd t w s
  | .dySub t w => Sys2Proof.Machine.execDySub t w s
  | .dyMul t w => Sys2Proof.Machine.execDyMul t w s
  | .dyMulh t w => Sys2Proof.Machine.execDyMulh t w s
  | .dyMulhu t w => Sys2Proof.Machine.execDyMulhu t w s
  | .dyDiv t w => Sys2Proof.Machine.execDyDiv t w s
  | .dyDivu t w => Sys2Proof.Machine.execDyDivu t w s
  | .dyRem t w => Sys2Proof.Machine.execDyRem t w s
  | .dyRemu t w => Sys2Proof.Machine.execDyRemu t w s
  | .dyAnd t w => Sys2Proof.Machine.execDyAnd t w s
  | .dyOr t w => Sys2Proof.Machine.execDyOr t w s
  | .dyXor t w => Sys2Proof.Machine.execDyXor t w s
  | .dyShl t w => Sys2Proof.Machine.execDyShl t w s
  | .dyShr t w => Sys2Proof.Machine.execDyShr t w s
  | .dySra t w => Sys2Proof.Machine.execDySra t w s
  | .dyMin t w => Sys2Proof.Machine.execDyMin t w s
  | .dyMax t w => Sys2Proof.Machine.execDyMax t w s
  | .dyMinu t w => Sys2Proof.Machine.execDyMinu t w s
  | .dyMaxu t w => Sys2Proof.Machine.execDyMaxu t w s
  | .dySlt t w => Sys2Proof.Machine.execDySlt t w s
  | .dySltu t w => Sys2Proof.Machine.execDySltu t w s
  | .dySeq t w => Sys2Proof.Machine.execDySeq t w s
  | .dyLi t w => Sys2Proof.Machine.execDyLi t w s
  | .dyLhi t w => Sys2Proof.Machine.execDyLhi t w s
  | .dyPopc t w => Sys2Proof.Machine.execDyPopc t w s
  | .dyClz t w => Sys2Proof.Machine.execDyClz t w s
  | .dyCtz t w => Sys2Proof.Machine.execDyCtz t w s
  | .dyRdinfo t w => Sys2Proof.Machine.execDyRdinfo t w s
  | .dyRdlc t w => Sys2Proof.Machine.execDyRdlc t w s
  | .dyLdb t w => Sys2Proof.Machine.execDyLdb t w s
  | .dyLdh t w => Sys2Proof.Machine.execDyLdh t w s
  | .dyLdw t w => Sys2Proof.Machine.execDyLdw t w s
  | .dyLdd t w => Sys2Proof.Machine.execDyLdd t w s
  | .dyLdbs t w => Sys2Proof.Machine.execDyLdbs t w s
  | .dyLdhs t w => Sys2Proof.Machine.execDyLdhs t w s
  | .dyLdws t w => Sys2Proof.Machine.execDyLdws t w s
  | .dyStb t w => Sys2Proof.Machine.execDyStb t w s
  | .dySth t w => Sys2Proof.Machine.execDySth t w s
  | .dyStw t w => Sys2Proof.Machine.execDyStw t w s
  | .dyStd t w => Sys2Proof.Machine.execDyStd t w s
  | .dyBeq t w => Sys2Proof.Machine.execDyBeq t w s
  | .dyBne t w => Sys2Proof.Machine.execDyBne t w s
  | .dyBlt t w => Sys2Proof.Machine.execDyBlt t w s
  | .dyBge t w => Sys2Proof.Machine.execDyBge t w s
  | .dyBltu t w => Sys2Proof.Machine.execDyBltu t w s
  | .dyBgeu t w => Sys2Proof.Machine.execDyBgeu t w s
  | .dyJmp t w => Sys2Proof.Machine.execDyJmp t w s
  | .dyCall t w => Sys2Proof.Machine.execDyCall t w s
  | .dyRet t w => Sys2Proof.Machine.execDyRet t w s
  | .dyLoop t w => Sys2Proof.Machine.execDyLoop t w s
  | .dyLbz t w => Sys2Proof.Machine.execDyLbz t w s
  | .dyLbnz t w => Sys2Proof.Machine.execDyLbnz t w s
  | .dyEnd t w => Sys2Proof.Machine.execDyEnd t w s
  | .dyTrap t w => Sys2Proof.Machine.execDyTrap t w s
  | .dyNop t w => Sys2Proof.Machine.execDyNop t w s
  | .dyVadd t w => Sys2Proof.Machine.execDyVadd t w s
  | .dyVsub t w => Sys2Proof.Machine.execDyVsub t w s
  | .dyVmul t w => Sys2Proof.Machine.execDyVmul t w s
  | .dyVfma t w => Sys2Proof.Machine.execDyVfma t w s
  | .dyVmin t w => Sys2Proof.Machine.execDyVmin t w s
  | .dyVmax t w => Sys2Proof.Machine.execDyVmax t w s
  | .dyVabs t w => Sys2Proof.Machine.execDyVabs t w s
  | .dyVneg t w => Sys2Proof.Machine.execDyVneg t w s
  | .dyVand t w => Sys2Proof.Machine.execDyVand t w s
  | .dyVor t w => Sys2Proof.Machine.execDyVor t w s
  | .dyVxor t w => Sys2Proof.Machine.execDyVxor t w s
  | .dyVshl t w => Sys2Proof.Machine.execDyVshl t w s
  | .dyVshr t w => Sys2Proof.Machine.execDyVshr t w s
  | .dyVsra t w => Sys2Proof.Machine.execDyVsra t w s
  | .dyVcvt t w => Sys2Proof.Machine.execDyVcvt t w s
  | .dyVbcast t w => Sys2Proof.Machine.execDyVbcast t w s
  | .dyVext t w => Sys2Proof.Machine.execDyVext t w s
  | .dyVins t w => Sys2Proof.Machine.execDyVins t w s
  | .dyVld t w => Sys2Proof.Machine.execDyVld t w s
  | .dyVst t w => Sys2Proof.Machine.execDyVst t w s
  | .dyVgather t w => Sys2Proof.Machine.execDyVgather t w s
  | .dyVscatter t w => Sys2Proof.Machine.execDyVscatter t w s
  | .dyVred t w => Sys2Proof.Machine.execDyVred t w s
  | .dyVcmp t w => Sys2Proof.Machine.execDyVcmp t w s
  | .dyVsel t w => Sys2Proof.Machine.execDyVsel t w s
  | .dyVperm t w => Sys2Proof.Machine.execDyVperm t w s
  | .dyVslide t w => Sys2Proof.Machine.execDyVslide t w s
  | .dyVexp t w => Sys2Proof.Machine.execDyVexp t w s
  | .dyVrcp t w => Sys2Proof.Machine.execDyVrcp t w s
  | .dyVrsqrt t w => Sys2Proof.Machine.execDyVrsqrt t w s
  | .dyVmov t w => Sys2Proof.Machine.execDyVmov t w s
  | .dyVbin t w => Sys2Proof.Machine.execDyVbin t w s
  | .dyVpand t w => Sys2Proof.Machine.execDyVpand t w s
  | .dyVpor t w => Sys2Proof.Machine.execDyVpor t w s
  | .dyVpxor t w => Sys2Proof.Machine.execDyVpxor t w s
  | .dyVpnot t w => Sys2Proof.Machine.execDyVpnot t w s
  | .dyVpfirst t w => Sys2Proof.Machine.execDyVpfirst t w s
  | .dyVpcnt t w => Sys2Proof.Machine.execDyVpcnt t w s
  | .dyMstl t w => Sys2Proof.Machine.execDyMstl t w s
  | .dyMswap t w => Sys2Proof.Machine.execDyMswap t w s
  | .dyMmul t w => Sys2Proof.Machine.execDyMmul t w s
  | .dyMacst t w => Sys2Proof.Machine.execDyMacst t w s
  | .dyMacz t w => Sys2Proof.Machine.execDyMacz t w s
  | .dyMvx t w => Sys2Proof.Machine.execDyMvx t w s
  | .dyDmain t w => Sys2Proof.Machine.execDyDmain t w s
  | .dyDmaout t w => Sys2Proof.Machine.execDyDmaout t w s
  | .dyDmawait t w => Sys2Proof.Machine.execDyDmawait t w s
  | .dyVsortkv t w => Sys2Proof.Machine.execDyVsortkv t w s
  | .dyVmergekv t w => Sys2Proof.Machine.execDyVmergekv t w s
  | .dyTopk t w => Sys2Proof.Machine.execDyTopk t w s
  | .dyTkmerge t w => Sys2Proof.Machine.execDyTkmerge t w s
  | .dyQpush t w => Sys2Proof.Machine.execDyQpush t w s
  | .dyQpop t w => Sys2Proof.Machine.execDyQpop t w s
  | .dySpawn t w => Sys2Proof.Machine.execDySpawn t w s
  | .dyAmoadd t w => Sys2Proof.Machine.execDyAmoadd t w s
  | .dyFence t w => Sys2Proof.Machine.execDyFence t w s
  | .dyWait t w => Sys2Proof.Machine.execDyWait t w s
  | .dmaDone t tag => Sys2Proof.Machine.execDmaDone t tag s
  | .amoaddDone t reg => Sys2Proof.Machine.execAmoaddDone t reg s
  | .mstlDone t => Sys2Proof.Machine.execMstlDone t s
  | .activityRampDone t => Sys2Proof.Machine.execActivityRampDone t s
  | .arrayIdleTimeout t => Sys2Proof.Machine.execArrayIdleTimeout t s
  | .mmulDone t => Sys2Proof.Machine.execMmulDone t s
  | .macstDone t => Sys2Proof.Machine.execMacstDone t s
  | .mvxDone t => Sys2Proof.Machine.execMvxDone t s
  | .kernelBoundReached t => Sys2Proof.Machine.execKernelBoundReached t s
  | .tileQuarantineRequest t => Sys2Proof.Machine.execTileQuarantineRequest t s
  | .tileUncorrError t => Sys2Proof.Machine.execTileUncorrError t s
  | .tileCeLimit t k => Sys2Proof.Machine.execTileCeLimit t k s
  | .tileRelease t => Sys2Proof.Machine.execTileRelease t s
  | .tileSelftestDone t pass => Sys2Proof.Machine.execTileSelftestDone t pass s
  | .dobLoad f r d => Sys2Proof.Machine.execDobLoad f r d s
  | .translationDone n h => Sys2Proof.Machine.execTranslationDone n h s
  | .dobUnload f r d => Sys2Proof.Machine.execDobUnload f r d s
  | .request f r d => Sys2Proof.Machine.execRequest f r d s
  | .cancel f r d => Sys2Proof.Machine.execCancel f r d s
  | .dispatch f r d => Sys2Proof.Machine.execDispatch f r d s
  | .dispatchPlace n die => Sys2Proof.Machine.execDispatchPlace n die s
  | .progBind f r d => Sys2Proof.Machine.execProgBind f r d s
  | .progRetire f r d => Sys2Proof.Machine.execProgRetire f r d s
  | .mdlReg f r d => Sys2Proof.Machine.execMdlReg f r d s
  | .mdlRetire f r d => Sys2Proof.Machine.execMdlRetire f r d s
  | .adpLoad f r d => Sys2Proof.Machine.execAdpLoad f r d s
  | .adpVersionRelease n a => Sys2Proof.Machine.execAdpVersionRelease n a s
  | .cltSet f r d => Sys2Proof.Machine.execCltSet f r d s
  | .pfxDrop f r d => Sys2Proof.Machine.execPfxDrop f r d s
  | .srvCfg f r d => Sys2Proof.Machine.execSrvCfg f r d s
  | .triggerBatchPlace n die stage => Sys2Proof.Machine.execTriggerBatchPlace n die stage s
  | .triggerMaxwaitExpiry n die stage => Sys2Proof.Machine.execTriggerMaxwaitExpiry n die stage s
  | .promptTake n die => Sys2Proof.Machine.execPromptTake n die s
  | .genBatchPlace n die model => Sys2Proof.Machine.execGenBatchPlace n die model s
  | .engineHoldRetry n die => Sys2Proof.Machine.execEngineHoldRetry n die s
  | .idxRegister f r d => Sys2Proof.Machine.execIdxRegister f r d s
  | .idxUpdate f r d => Sys2Proof.Machine.execIdxUpdate f r d s
  | .idxSweep f r d => Sys2Proof.Machine.execIdxSweep f r d s
  | .idxRetire f r d => Sys2Proof.Machine.execIdxRetire f r d s
  | .updateOpDone n => Sys2Proof.Machine.execUpdateOpDone n s
  | .sweepDone n => Sys2Proof.Machine.execSweepDone n s
  | .codeEntryTake n die => Sys2Proof.Machine.execCodeEntryTake n die s
  | .walkStart n die => Sys2Proof.Machine.execWalkStart n die s
  | .walkMemoryResponse n die ctx => Sys2Proof.Machine.execWalkMemoryResponse n die ctx s
  | .tblRegister f r d => Sys2Proof.Machine.execTblRegister f r d s
  | .tblReplace f r d => Sys2Proof.Machine.execTblReplace f r d s
  | .tblReplaceStart n h => Sys2Proof.Machine.execTblReplaceStart n h s
  | .tblRetire f r d => Sys2Proof.Machine.execTblRetire f r d s
  | .fetchEntryTake n die => Sys2Proof.Machine.execFetchEntryTake n die s
  | .indexListRead n die job => Sys2Proof.Machine.execIndexListRead n die job s
  | .rowReadDone n die job => Sys2Proof.Machine.execRowReadDone n die job s
  | .remotePartTimeout n die job => Sys2Proof.Machine.execRemotePartTimeout n die job s
  | .txtVocabReg f r d => Sys2Proof.Machine.execTxtVocabReg f r d s
  | .txtGrammarReg f r d => Sys2Proof.Machine.execTxtGrammarReg f r d s
  | .txtTemplateReg f r d => Sys2Proof.Machine.execTxtTemplateReg f r d s
  | .txtTokenise f r d => Sys2Proof.Machine.execTxtTokenise f r d s
  | .txtRetire f r d => Sys2Proof.Machine.execTxtRetire f r d s
  | .textStep n die => Sys2Proof.Machine.execTextStep n die s
  | .textLineFill n die job => Sys2Proof.Machine.execTextLineFill n die job s
  | .srcCtrlRun v => Sys2Proof.Machine.execSrcCtrlRun v s
  | .gthCtrlRun v => Sys2Proof.Machine.execGthCtrlRun v s
  | .txtCtrlRun v => Sys2Proof.Machine.execTxtCtrlRun v s
  | .ftlCtrlRun v => Sys2Proof.Machine.execFtlCtrlRun v s
  | .sqTailDoorbell f r v => Sys2Proof.Machine.execSqTailDoorbell f r v s
  | .cqHeadDoorbell f r v => Sys2Proof.Machine.execCqHeadDoorbell f r v s
  | .ringEnable f r v => Sys2Proof.Machine.execRingEnable f r v s
  | .ringDisable f r v => Sys2Proof.Machine.execRingDisable f r v s
  | .ringDrained f r => Sys2Proof.Machine.execRingDrained f r s
  | .descriptorFetch f r ds => Sys2Proof.Machine.execDescriptorFetch f r ds s
  | .hostReadData f bytes => Sys2Proof.Machine.execHostReadData f bytes s
  | .hostReadError f src => Sys2Proof.Machine.execHostReadError f src s
  | .irqTimerExpiry f r => Sys2Proof.Machine.execIrqTimerExpiry f r s
  | .msixUnmask f vec => Sys2Proof.Machine.execMsixUnmask f vec s
  | .busMasterEnable f => Sys2Proof.Machine.execBusMasterEnable f s
  | .hostPerstNAssert => Sys2Proof.Machine.execHostPerstNAssert s
  | .hotReset => Sys2Proof.Machine.execHotReset s
  | .dlDown => Sys2Proof.Machine.execDlDown s
  | .flrPf0 => Sys2Proof.Machine.execFlrPf0 s
  | .flrVf n => Sys2Proof.Machine.execFlrVf n s
  | .vfEnableClear => Sys2Proof.Machine.execVfEnableClear s
  | .memAlloc f r d => Sys2Proof.Machine.execMemAlloc f r d s
  | .memFree f r d => Sys2Proof.Machine.execMemFree f r d s
  | .memSync f r d => Sys2Proof.Machine.execMemSync f r d s
  | .memSyncDone f a => Sys2Proof.Machine.execMemSyncDone f a s
  | .memMove f r d => Sys2Proof.Machine.execMemMove f r d s
  | .tierChangeDone f a => Sys2Proof.Machine.execTierChangeDone f a s
  | .memHostIn f r d => Sys2Proof.Machine.execMemHostIn f r d s
  | .memHostOut f r d => Sys2Proof.Machine.execMemHostOut f r d s
  | .memExport f r d => Sys2Proof.Machine.execMemExport f r d s
  | .memUnexport f r d => Sys2Proof.Machine.execMemUnexport f r d s
  | .memQuery f r d => Sys2Proof.Machine.execMemQuery f r d s
  | .stagingPageFill f a page => Sys2Proof.Machine.execStagingPageFill f a page s
  | .demote v => Sys2Proof.Machine.execDemote v s
  | .demoteAbort v => Sys2Proof.Machine.execDemoteAbort v s
  | .demoteDone => Sys2Proof.Machine.execDemoteDone s
  | .imgCreate => Sys2Proof.Machine.execImgCreate s
  | .imgDelete => Sys2Proof.Machine.execImgDelete s
  | .readDisturbRefresh b => Sys2Proof.Machine.execReadDisturbRefresh b s
  | .flashPatrolRead b bits => Sys2Proof.Machine.execFlashPatrolRead b bits s
  | .wearLevelMove b => Sys2Proof.Machine.execWearLevelMove b s
  | .flashBlockFail b => Sys2Proof.Machine.execFlashBlockFail b s
  | .hbmPatrolRead g u f a res => Sys2Proof.Machine.execHbmPatrolRead g u f a res s
  | .hbmUncorrRead g u f a => Sys2Proof.Machine.execHbmUncorrRead g u f a s
  | .deviceFatalError src => Sys2Proof.Machine.execDeviceFatalError src s
  | .ringTransferCrcFail link => Sys2Proof.Machine.execRingTransferCrcFail link s
  | .rasRecPop => Sys2Proof.Machine.execRasRecPop s
  | .portEnable p => Sys2Proof.Machine.execPortEnable p s
  | .portDisable p => Sys2Proof.Machine.execPortDisable p s
  | .trainStateDone p x => Sys2Proof.Machine.execTrainStateDone p x s
  | .trainStateTimeout p => Sys2Proof.Machine.execTrainStateTimeout p s
  | .portRetrainTimer p => Sys2Proof.Machine.execPortRetrainTimer p s
  | .laneFault p lane => Sys2Proof.Machine.execLaneFault p lane s
  | .laserBankFail e => Sys2Proof.Machine.execLaserBankFail e s
  | .flitReceive p fl corr bad => Sys2Proof.Machine.execFlitReceive p fl corr bad s
  | .cellStart p => Sys2Proof.Machine.execCellStart p s
  | .packetForward src cls => Sys2Proof.Machine.execPacketForward src cls s
  | .packetDeliver die => Sys2Proof.Machine.execPacketDeliver die s
  | .transactionResponse die => Sys2Proof.Machine.execTransactionResponse die s
  | .transactionTimeout n tid => Sys2Proof.Machine.execTransactionTimeout n tid s
  | .gateEntryAdvance p => Sys2Proof.Machine.execGateEntryAdvance p s
  | .markReceive p num rtt => Sys2Proof.Machine.execMarkReceive p num rtt s
  | .syncMarkTimeout => Sys2Proof.Machine.execSyncMarkTimeout s
  | .inputDip x => Sys2Proof.Machine.execInputDip x s
  | .inputSag x => Sys2Proof.Machine.execInputSag x s
  | .inputSurge x => Sys2Proof.Machine.execInputSurge x s
  | .inputLoss x => Sys2Proof.Machine.execInputLoss x s
  | .inputOvervoltage x => Sys2Proof.Machine.execInputOvervoltage x s
  | .inputReturn x => Sys2Proof.Machine.execInputReturn x s
  | .bankAtVres x => Sys2Proof.Machine.execBankAtVres x s
  | .holdupCommitDone x => Sys2Proof.Machine.execHoldupCommitDone x s
  | .railFault r => Sys2Proof.Machine.execRailFault r s
  | .railStepDone => Sys2Proof.Machine.execRailStepDone s
  | .vstbyRegulation x => Sys2Proof.Machine.execVstbyRegulation x s
  | .bankCapacitanceMeasure x => Sys2Proof.Machine.execBankCapacitanceMeasure x s
  | .powerExcess x => Sys2Proof.Machine.execPowerExcess x s
  | .ballastRaise row => Sys2Proof.Machine.execBallastRaise row s
  | .ballastRelease row => Sys2Proof.Machine.execBallastRelease row s
  | .thermTrip x => Sys2Proof.Machine.execThermTrip x s
  | .pmbusPage b => Sys2Proof.Machine.execPmbusPage b s
  | .pmbusClearFaults => Sys2Proof.Machine.execPmbusClearFaults s
  | .pmbusCapability => Sys2Proof.Machine.execPmbusCapability s
  | .pmbusVoutMode => Sys2Proof.Machine.execPmbusVoutMode s
  | .pmbusStatusByte => Sys2Proof.Machine.execPmbusStatusByte s
  | .pmbusStatusWord => Sys2Proof.Machine.execPmbusStatusWord s
  | .pmbusStatusInput => Sys2Proof.Machine.execPmbusStatusInput s
  | .pmbusReadVin => Sys2Proof.Machine.execPmbusReadVin s
  | .pmbusReadIin => Sys2Proof.Machine.execPmbusReadIin s
  | .pmbusReadPin => Sys2Proof.Machine.execPmbusReadPin s
  | .pmbusReadVout => Sys2Proof.Machine.execPmbusReadVout s
  | .pmbusReadIout => Sys2Proof.Machine.execPmbusReadIout s
  | .pmbusReadTemperature1 => Sys2Proof.Machine.execPmbusReadTemperature1 s
  | .pmbusReadTemperature2 => Sys2Proof.Machine.execPmbusReadTemperature2 s
  | .pmbusRevision => Sys2Proof.Machine.execPmbusRevision s
  | .pmbusRefused b => Sys2Proof.Machine.execPmbusRefused b s
  | .fwStage => Sys2Proof.Machine.execFwStage s
  | .fwStageDone => Sys2Proof.Machine.execFwStageDone s
  | .fwActivate => Sys2Proof.Machine.execFwActivate s
  | .fwCommit => Sys2Proof.Machine.execFwCommit s
  | .fwRevert => Sys2Proof.Machine.execFwRevert s
  | .trialBootTimeout => Sys2Proof.Machine.execTrialBootTimeout s
  | .recoveryMessage m => Sys2Proof.Machine.execRecoveryMessage m s
  | .spdmGetVersion f q => Sys2Proof.Machine.execSpdmGetVersion f q s
  | .spdmGetCapabilities f q => Sys2Proof.Machine.execSpdmGetCapabilities f q s
  | .spdmNegotiateAlgorithms f q => Sys2Proof.Machine.execSpdmNegotiateAlgorithms f q s
  | .spdmGetDigests f q => Sys2Proof.Machine.execSpdmGetDigests f q s
  | .spdmGetCertificate f q => Sys2Proof.Machine.execSpdmGetCertificate f q s
  | .spdmChallenge f q => Sys2Proof.Machine.execSpdmChallenge f q s
  | .spdmGetMeasurements f q => Sys2Proof.Machine.execSpdmGetMeasurements f q s
  | .spdmKeyExchange f q => Sys2Proof.Machine.execSpdmKeyExchange f q s
  | .spdmFinish f q => Sys2Proof.Machine.execSpdmFinish f q s
  | .spdmKeyUpdate f q => Sys2Proof.Machine.execSpdmKeyUpdate f q s
  | .spdmHeartbeat f q => Sys2Proof.Machine.execSpdmHeartbeat f q s
  | .spdmEndSession f q => Sys2Proof.Machine.execSpdmEndSession f q s
  | .spdmUnsupported f q => Sys2Proof.Machine.execSpdmUnsupported f q s
  | .doeDiscovery f ix => Sys2Proof.Machine.execDoeDiscovery f ix s
  | .ideKm st key => Sys2Proof.Machine.execIdeKm st key s
  | .ideIntegrityFail st => Sys2Proof.Machine.execIdeIntegrityFail st s
  | .getInfo => Sys2Proof.Machine.execGetInfo s
  | .readTelem => Sys2Proof.Machine.execReadTelem s
  | .readRecords => Sys2Proof.Machine.execReadRecords s
  | .readLog first n => Sys2Proof.Machine.execReadLog first n s
  | .powerOn => Sys2Proof.Machine.execPowerOn s
  | .warmReset => Sys2Proof.Machine.execWarmReset s
  | .sidebandUnsupported op => Sys2Proof.Machine.execSidebandUnsupported op s
  | .setEndpointId eid => Sys2Proof.Machine.execSetEndpointId eid s
  | .logcmdRead => Sys2Proof.Machine.execLogcmdRead s
  | .logcmdSeal => Sys2Proof.Machine.execLogcmdSeal s
  | .rtcSet v => Sys2Proof.Machine.execRtcSet v s
  | .logSealTimer => Sys2Proof.Machine.execLogSealTimer s
  | .hourlyRecordTimer => Sys2Proof.Machine.execHourlyRecordTimer s
  | .wearTableTimer => Sys2Proof.Machine.execWearTableTimer s
  | .logProgramFail => Sys2Proof.Machine.execLogProgramFail s
  | .standbyTelemetryTimer x => Sys2Proof.Machine.execStandbyTelemetryTimer x s
  | .inputApplied x => Sys2Proof.Machine.execInputApplied x s
  | .standbyExit x => Sys2Proof.Machine.execStandbyExit x s
  | .startupPhaseDone o => Sys2Proof.Machine.execStartupPhaseDone o s
  | .bankRechargedToVres x => Sys2Proof.Machine.execBankRechargedToVres x s
  | .thermalCycle x => Sys2Proof.Machine.execThermalCycle x s
  | .vstbyLoss x => Sys2Proof.Machine.execVstbyLoss x s
  | .hostPerstNDeassert => Sys2Proof.Machine.execHostPerstNDeassert s
  | .boundaryScanAccess ir => Sys2Proof.Machine.execBoundaryScanAccess ir s
  | .allocZeroFillDone f a => Sys2Proof.Machine.execAllocZeroFillDone f a s
  | .tableMapWritten n h => Sys2Proof.Machine.execTableMapWritten n h s
  | .vocabStructuresBuilt n h => Sys2Proof.Machine.execVocabStructuresBuilt n h s
  | .logReadDone => Sys2Proof.Machine.execLogReadDone s
  | .providerImageCommandDone => Sys2Proof.Machine.execProviderImageCommandDone s
  | .flashDailyRecordTimer => Sys2Proof.Machine.execFlashDailyRecordTimer s

end Sys2Proof.Machine
end

