-- ==== Sys2Proof/WellFormed.lean ====
section
/-! DEFINITION. Which commands can be sent at all: the ranges of operands that their types do not hold already. -/
namespace Sys2Proof

/-- A 48-bit global address (R325). -/
def wfAddr (a : Nat) : Bool := decide (a < 2 ^ 48)
/-- A block of one of four die pairs: die × 2^20 + block (Table 14.5). -/
def wfBlock (b : Nat) : Bool := decide (b / 2 ^ 20 < 4)
/-- No more readings than there are sensor groups and rails (Tables 17.2, 17.3). -/
def Sample.wf (x : Sample) : Bool := decide (x.temps.length ≤ 54) && decide (x.rails.length ≤ 22)
/-- A flit has 40 slots, but a TRAIN or MARK flit may be shorter here (R369). -/
def Flit.wf (x : Flit) : Bool := decide (x.slots.length ≤ 40)
/-- Receive shares of 17 classes (R371). -/
def TrainInfo.wf (x : TrainInfo) : Bool := decide (x.shares.length = 17)
/-- A message carries at most 64 bytes (R459). -/
def RecoveryMessage.wf (m : RecoveryMessage) : Bool := decide (m.bytes.length ≤ 64)
/-- A DOE object is at most 16 KiB (R416). -/
def SpdmReq.wf (q : SpdmReq) : Bool := decide (q.nonce.length + q.data.length ≤ 16384)
/-- Phases are numbered 1–8 (Table 20.11). -/
def PhaseOutcome.wf (o : PhaseOutcome) : Bool := decide (1 ≤ o.phase.val)

/-- Is a command well formed? A command not named here has no operand whose type is wider than its range. -/
def Instr.wf : Instr → Bool
  | .descriptorFetch _ _ ds => decide (1 ≤ ds.length) && decide (ds.length ≤ 2)
  | .hostReadData _ bytes => decide (1 ≤ bytes.length) && decide (bytes.length ≤ 256)
  | .memSyncDone _ a => wfAddr a
  | .tierChangeDone _ a => wfAddr a
  | .stagingPageFill _ a _ => wfAddr a
  | .allocZeroFillDone _ a => wfAddr a
  | .hbmPatrolRead _ _ _ a _ => wfAddr a
  | .hbmUncorrRead _ _ _ a => wfAddr a
  | .readDisturbRefresh b => wfBlock b
  | .flashPatrolRead b _ => wfBlock b
  | .wearLevelMove b => wfBlock b
  | .flashBlockFail b => wfBlock b
  | .trainStateDone _ x => x.wf
  | .flitReceive _ x _ _ => x.wf
  | .transactionTimeout _ tid => decide (tid < 4096)
  | .recoveryMessage m => m.wf
  | .startupPhaseDone o => o.wf
  | .churnBoundary x => x.wf
  | .inputDip x => x.wf
  | .inputSag x => x.wf
  | .inputSurge x => x.wf
  | .inputLoss x => x.wf
  | .inputOvervoltage x => x.wf
  | .inputReturn x => x.wf
  | .bankAtVres x => x.wf
  | .holdupCommitDone x => x.wf
  | .vstbyRegulation x => x.wf
  | .bankCapacitanceMeasure x => x.wf
  | .powerExcess x => x.wf
  | .thermTrip x => x.wf
  | .standbyTelemetryTimer x => x.wf
  | .inputApplied x => x.wf
  | .standbyExit x => x.wf
  | .bankRechargedToVres x => x.wf
  | .thermalCycle x => x.wf
  | .vstbyLoss x => x.wf
  | .spdmGetVersion _ q => q.wf
  | .spdmGetCapabilities _ q => q.wf
  | .spdmNegotiateAlgorithms _ q => q.wf
  | .spdmGetDigests _ q => q.wf
  | .spdmGetCertificate _ q => q.wf
  | .spdmChallenge _ q => q.wf
  | .spdmGetMeasurements _ q => q.wf
  | .spdmKeyExchange _ q => q.wf
  | .spdmFinish _ q => q.wf
  | .spdmKeyUpdate _ q => q.wf
  | .spdmHeartbeat _ q => q.wf
  | .spdmEndSession _ q => q.wf
  | .spdmUnsupported _ q => q.wf
  | _ => true

end Sys2Proof
end

