-- ==== Sys2Proof/Safety.lean ====
section
/-! DEFINITION. What counts as a safe state and a safe step, and the terms in which statements speak of a tile's instructions. -/
namespace Sys2Proof.Machine

/-- The memory that the block addresses has its canonical form (log 4). -/
def State.memOk (s : State) : Bool := Memory.wf s.mem.cells
/-- A step that goes on. -/
def goesOn (s : State) : Prop := ∃ t, step s = .next t

/-- Tile `t` runs a kernel. -/
def State.runs (s : State) (t : TileId) : Prop := (s.tiles[t].run).isSome = true
/-- An instruction of tile `t` ends with the tile as `u`: one BCLK has passed and nothing outside the tile has changed. -/
def State.ends (s : State) (t : TileId) (u : Tile) : State := s.tick.modTile t fun _ => u
/-- `x` is a vector register's value whose active lanes are `f` of the lane number, the others those of `old` (R88). -/
def lanesAre (t : Tile) (w : DyWord) (old x : BitVec 2048) (f : Nat → Nat) : Prop :=
  ∀ i < lanesOf w.t, lane x (laneBits w.t) i = if t.active w w.t i then f i % 2 ^ laneBits w.t else lane old (laneBits w.t) i
/-- A two's-complement or unsigned integer narrowed to a lane: saturated or wrapped (R94). -/
def narrowInt (ty : BitVec 4) (sat : Bool) (v : Int) : Nat :=
  ((if sat then (if v < tyMin ty then tyMin ty else if tyMax ty < v then tyMax ty else v) else v) % 2 ^ laneBits ty).toNat

/-! ### Commands of the rings -/

/-- The command whose descriptor, with the row's OPCODE, a ring fetches next. -/
def State.nextCmd (s : State) (op : Nat) (f : Fn) (r : RingId) (d : Desc) : Cmd := { f, r, ord := (s.ring f r).nextOrd, d := withOp d op }
/-- The ring may fetch, neither FENCE nor a descriptor that waits behind one holds the new one back (R296), and no earlier message of the function waits to be sent. -/
def State.takes (s : State) (f : Fn) (r : RingId) (d : Desc) : Prop :=
  s.up = true ∧ s.mayFetch f r = true ∧ (s.ring f r).waiting = [] ∧ (d.toNat / 2 ^ 16 % 2 = 1 → (s.ring f r).running = []) ∧ s.host[f].held = []
/-- The state in which a fetched descriptor starts: a BCLK later, with the ring's head past it, its 128 bytes counted, and the descriptor among those that run. -/
def State.fetched (s : State) (f : Fn) (r : RingId) : State :=
  ((s.tick.modRing f r fun g => { g with sqHead := (g.sqHead + 1) % s.sqSize f r, nextOrd := g.nextOrd + 1 }).count (stallOf f) 0x090 128).modRing f r fun g =>
    { g with running := g.running ++ [(s.ring f r).nextOrd] }
/-- The descriptor passes the checks that every command has: the Stall's state (R63), the reserved bytes (R296), the ring and the function (R405). -/
def State.passes (s : State) (op : Nat) (f : Fn) (r : RingId) (d : Desc) : Prop :=
  s.takes f r d ∧ (∀ n, stallOf f = some n → s.stallState n = .fresh) ∧ (∃ l, bodyFields op = some l ∧ (s.nextCmd op f r d).reservedZero l = true) ∧
    (adminOp op = true ∨ op = 0x32 → r = 0) ∧ (memOp op = false → f ≠ pf0)
/-- It does, and what it names can be read and written now: it does not wait for a Commons turn, a fabric read, a flash read or a staging page. -/
def State.accepts (s : State) (op : Nat) (f : Fn) (r : RingId) (d : Desc) : Prop := s.passes op f r d ∧ (s.fetched f r).cmdReady (s.nextCmd op f r d) = true
/-- `u` is reached from `s` with the completion of `c` posted: its entry is the first message sent, and the descriptor runs no longer (R411). -/
def State.posted (s u : State) (c : Cmd) (st : Code) (r0 r1 : Nat) : Prop :=
  (∃ e l, u.sent = s.sent ++ HostMsg.entry c.f c.r (s.ring c.f c.r).cqTail e :: l ∧ e.tag = c.tag ∧ e.opcode = BitVec.ofNat 16 c.op ∧ e.status = st ∧
    e.result0 = BitVec.ofNat 32 r0 ∧ e.result1 = BitVec.ofNat 32 r1) ∧ c.ord ∉ (u.ring c.f c.r).running
/-- A command that has started has not completed, and its ring's messages reach the host at once. -/
def State.awaits (s : State) (c : Cmd) : Prop := (s.ring c.f c.r).running.contains c.ord = true ∧ s.hostOpen c.f = true ∧ s.host[c.f].held = []

end Sys2Proof.Machine
end

