-- ==== Sys2Proof/Certificates/Slice0/Obligations.lean ====
section
/-! DEFINITION. The statements for the provers. Where a statement about a command names the whole state that it answers, all that the expression does not change is as it was; where it says `∃ u`, it speaks of the parts of `u` that it names. -/
open Sys2Proof Sys2Proof.Machine

/-! ### Instructions of tiles -/

/-- Table 4.4, R90: the 22 instructions sD = sA op B′, each by ordinary arithmetic on the two 64-bit numbers. -/
def Obligations.ScalarBinaryResults : Prop :=
  ∀ (t : TileId) (w : DyWord) (s : State), s.runs t → s.tiles[t].busyS (if w.i then [w.d, w.a] else [w.d, w.a, w.b]) = false →
    ∀ r ∈ ([(.dyAdd t w, 0x01, fun a b => BitVec.ofNat 64 (a.toNat + b.toNat)), (.dySub t w, 0x02, fun a b => BitVec.ofInt 64 (a.toInt - b.toInt)),
        (.dyMul t w, 0x03, fun a b => BitVec.ofInt 64 (a.toInt * b.toInt)), (.dyMulh t w, 0x04, fun a b => BitVec.ofInt 64 (a.toInt * b.toInt / 2 ^ 64)),
        (.dyMulhu t w, 0x05, fun a b => BitVec.ofNat 64 (a.toNat * b.toNat / 2 ^ 64)),
        (.dyDiv t w, 0x06, fun a b => if b = 0 then BitVec.ofInt 64 (-1) else BitVec.ofInt 64 (a.toInt.tdiv b.toInt)),
        (.dyDivu t w, 0x07, fun a b => if b = 0 then BitVec.ofInt 64 (-1) else BitVec.ofNat 64 (a.toNat / b.toNat)),
        (.dyRem t w, 0x08, fun a b => if b = 0 then a else BitVec.ofInt 64 (a.toInt.tmod b.toInt)),
        (.dyRemu t w, 0x09, fun a b => if b = 0 then a else BitVec.ofNat 64 (a.toNat % b.toNat)),
        (.dyAnd t w, 0x0A, fun a b => a &&& b), (.dyOr t w, 0x0B, fun a b => a ||| b), (.dyXor t w, 0x0C, fun a b => a ^^^ b),
        (.dyShl t w, 0x0D, fun a b => BitVec.ofNat 64 (a.toNat * 2 ^ (b.toNat % 64))), (.dyShr t w, 0x0E, fun a b => BitVec.ofNat 64 (a.toNat / 2 ^ (b.toNat % 64))),
        (.dySra t w, 0x0F, fun a b => BitVec.ofInt 64 (a.toInt / 2 ^ (b.toNat % 64))),
        (.dyMin t w, 0x10, fun a b => if a.toInt < b.toInt then a else b), (.dyMax t w, 0x11, fun a b => if a.toInt < b.toInt then b else a),
        (.dyMinu t w, 0x12, fun a b => if a.toNat < b.toNat then a else b), (.dyMaxu t w, 0x13, fun a b => if a.toNat < b.toNat then b else a),
        (.dySlt t w, 0x14, fun a b => if a.toInt < b.toInt then 1 else 0), (.dySltu t w, 0x15, fun a b => if a.toNat < b.toNat then 1 else 0),
        (.dySeq t w, 0x16, fun a b => if a = b then 1 else 0)] : List (Instr × Nat × (BitVec 64 → BitVec 64 → BitVec 64))),
      s.atPc t r.2.1 w = true →
        exec r.1 s = .next (s.ends t (s.tiles[t].setS w.d (r.2.2 (s.tiles[t].sreg w.a) (if w.i then w.low.signExtend 64 else s.tiles[t].sreg w.b))).advance)

/-- Table 4.4: li, lhi, popc, clz, ctz, rdlc. The counts are those of a 64-bit number; those of zero are 0, 64 and 64.
rdinfo (Table 4.4, R109): the tile, the C-die and the kernel handle are read; the elapsed count is a free value that never falls and never passes the bound, and the
count left is the bound less it (log 14). -/
def Obligations.ScalarUnaryResults : Prop :=
 (∀ (t : TileId) (w : DyWord) (s : State), s.runs t →
     ∀ r ∈ ([(.dyLi t w, 0x17, [w.d], fun x => x = w.low.signExtend 64),
         (.dyLhi t w, 0x18, [w.d], fun x => x.toNat = w.low.toNat * 2 ^ 32 + (s.tiles[t].sreg w.d).toNat % 2 ^ 32),
         (.dyPopc t w, 0x19, [w.d, w.a], fun x => x.toNat = ((List.range 64).filter fun i => (s.tiles[t].sreg w.a).getLsbD i).length),
         (.dyClz t w, 0x1A, [w.d, w.a], fun x => x.toNat ≤ 64 ∧ (s.tiles[t].sreg w.a).toNat < 2 ^ (64 - x.toNat) ∧ (x.toNat < 64 → 2 ^ (63 - x.toNat) ≤ (s.tiles[t].sreg w.a).toNat)),
         (.dyCtz t w, 0x1B, [w.d, w.a], fun x => x.toNat ≤ 64 ∧ (s.tiles[t].sreg w.a).toNat % 2 ^ x.toNat = 0 ∧ (x.toNat < 64 → (s.tiles[t].sreg w.a).getLsbD x.toNat)),
         (.dyRdlc t w, 0x1D, [w.d], fun x => ∃ h : w.low.toNat < 4, x.toNat = (s.tiles[t].lc[w.low.toNat]).toNat)] :
         List (Instr × Nat × List (BitVec 5) × (BitVec 64 → Prop))),
       s.atPc t r.2.1 w = true → s.tiles[t].busyS r.2.2.1 = false → ∃ x, exec r.1 s = .next (s.ends t (s.tiles[t].setS w.d x).advance) ∧ r.2.2.2 x) ∧
 (∀ (t : TileId) (w : DyWord) (s : State) (r : Running), s.tiles[t].run = some r → r.seen ≤ r.bound → s.tiles[t].busyS [w.d] = false → s.atPc t 0x1C w = true →
     ∃ x e, r.seen ≤ e ∧ e ≤ r.bound ∧
       exec (.dyRdinfo t w) s = .next (s.useFree.ends t
         ((if w.low = 1 ∨ w.low = 2 then { s.tiles[t] with run := some { r with seen := e } } else s.tiles[t]).setS w.d x).advance) ∧
       (w.low = 0 → x = BitVec.ofNat 64 t.val) ∧ (w.low = 1 → x = BitVec.ofNat 64 e) ∧ (w.low = 2 → x = BitVec.ofNat 64 (r.bound - e)) ∧
       (w.low = 3 → x = BitVec.ofNat 64 (t.val / 64)) ∧ (w.low = 4 → x.toNat = r.item.handle.toNat))

/-- R90, Table 4.4: a load of 1, 2, 4 or 8 bytes takes them least significant first and extends by zero or by sign. -/
def Obligations.LoadResults : Prop :=
  ∀ (t : TileId) (w : DyWord) (s : State), s.runs t → s.tiles[t].busyS [w.d, w.a] = false →
    let a := (s.tiles[t].sreg w.a + w.low.signExtend 64).toNat
    ∀ r ∈ ([(.dyLdb t w, 0x20, 1, false), (.dyLdh t w, 0x21, 2, false), (.dyLdw t w, 0x22, 4, false), (.dyLdd t w, 0x23, 8, false),
        (.dyLdbs t w, 0x24, 1, true), (.dyLdhs t w, 0x25, 2, true), (.dyLdws t w, 0x26, 4, true)] : List (Instr × Nat × Nat × Bool)),
      s.atPc t r.2.1 w = true → a % r.2.2.1 = 0 → a + r.2.2.1 ≤ 0x1F0000 → s.tiles[t].marked a r.2.2.1 = false →
        let v := ((List.range r.2.2.1).map fun i => (s.tiles[t].byte (a + i)).toNat * 2 ^ (8 * i)).sum
        exec r.1 s = .next (s.ends t (s.tiles[t].setS w.d
          (if r.2.2.2 ∧ 2 ^ (8 * r.2.2.1 - 1) ≤ v then BitVec.ofInt 64 ((v : Int) - 2 ^ (8 * r.2.2.1)) else BitVec.ofNat 64 v)).advance)

/-- R90, Table 4.4: a store of 1, 2, 4 or 8 bytes writes the low bytes of sB, least significant first, and no other byte of the tile store. -/
def Obligations.StoreResults : Prop :=
  ∀ (t : TileId) (w : DyWord) (s : State), s.runs t → s.tiles[t].busyS [w.a, w.b] = false →
    let a := (s.tiles[t].sreg w.a + w.low.signExtend 64).toNat
    ∀ r ∈ ([(.dyStb t w, 0x28, 1), (.dySth t w, 0x29, 2), (.dyStw t w, 0x2A, 4), (.dyStd t w, 0x2B, 8)] : List (Instr × Nat × Nat)),
      s.atPc t r.2.1 w = true → a % r.2.2 = 0 → a + r.2.2 ≤ 0x1F0000 →
        ∃ m, exec r.1 s = .next (s.ends t { s.tiles[t].advance with store := m }) ∧
          ∀ x, mapGet 0 m x = if a ≤ x ∧ x < a + r.2.2 then BitVec.ofNat 8 ((s.tiles[t].sreg w.b).toNat / 2 ^ (8 * (x - a))) else s.tiles[t].byte x

/-- Table 4.12, R90, R441: a scalar access that is misaligned, that reaches past the kernel area, or a load that meets a mark, faults in this order of checks.
R105: an instruction that uses a scalar register which an amoadd outstanding will write waits; only the clock goes on. -/
def Obligations.ScalarAccessFaults : Prop :=
 (∀ (t : TileId) (w : DyWord) (s : State), s.runs t →
     let a := (s.tiles[t].sreg w.a + w.low.signExtend 64).toNat
     ∀ r ∈ ([(.dyLdb t w, 0x20, 1, true), (.dyLdh t w, 0x21, 2, true), (.dyLdw t w, 0x22, 4, true), (.dyLdd t w, 0x23, 8, true), (.dyLdbs t w, 0x24, 1, true),
         (.dyLdhs t w, 0x25, 2, true), (.dyLdws t w, 0x26, 4, true), (.dyStb t w, 0x28, 1, false), (.dySth t w, 0x29, 2, false), (.dyStw t w, 0x2A, 4, false),
         (.dyStd t w, 0x2B, 8, false)] : List (Instr × Nat × Nat × Bool)),
       s.atPc t r.2.1 w = true → s.tiles[t].busyS (if r.2.2.2 then [w.d, w.a] else [w.a, w.b]) = false →
         (a % r.2.2.1 ≠ 0 → exec r.1 s = .next (s.tick.faultKernel t .align 0)) ∧
         (a % r.2.2.1 = 0 → 0x1F0000 < a + r.2.2.1 → exec r.1 s = .next (s.tick.faultKernel t .tsRange 0)) ∧
         (a % r.2.2.1 = 0 → a + r.2.2.1 ≤ 0x1F0000 → r.2.2.2 = true → s.tiles[t].marked a r.2.2.1 = true → exec r.1 s = .next (s.tick.faultKernel t .poison 0))) ∧
 (∀ (t : TileId) (w : DyWord) (s : State), s.runs t →
     ∀ r ∈ ([(.dyAdd t w, 0x01, [w.d, w.a]), (.dyLi t w, 0x17, [w.d]), (.dyPopc t w, 0x19, [w.d, w.a]), (.dyLdd t w, 0x23, [w.d, w.a]), (.dyStd t w, 0x2B, [w.a, w.b]),
         (.dyBeq t w, 0x30, [w.a, w.b]), (.dyLoop t w, 0x39, [w.a]), (.dyVbcast t w, 0x4F, [w.a]), (.dyMstl t w, 0x90, [w.a]), (.dyMmul t w, 0x92, [w.a, w.b]),
         (.dyDmain t w, 0xA0, [w.a, w.b, DyC w]), (.dyTopk t w, 0xB2, [w.d, w.a, w.b, DyC w]), (.dyQpush t w, 0xC0, [w.d, w.a]), (.dyAmoadd t w, 0xC3, [w.d, w.a, w.b])] :
         List (Instr × Nat × List (BitVec 5))),
       s.atPc t r.2.1 w = true → s.tiles[t].busyS r.2.2 = true → exec r.1 s = .next s.tick)

/-- Table 4.5, R91: a branch goes to the instruction's address plus IMM when its comparison holds, and on otherwise.
Table 4.5, R91, R93: jmp goes to its address plus IMM; call pushes the next address on the return stack, and ret takes the top of it; nop only goes on. -/
def Obligations.BranchCallResults : Prop :=
 (∀ (t : TileId) (w : DyWord) (s : State), s.runs t → s.tiles[t].busyS [w.a, w.b] = false →
     let a := s.tiles[t].sreg w.a
     let b := s.tiles[t].sreg w.b
     ∀ r ∈ ([(.dyBeq t w, 0x30, decide (a = b)), (.dyBne t w, 0x31, decide (a ≠ b)), (.dyBlt t w, 0x32, decide (a.toInt < b.toInt)), (.dyBge t w, 0x33, decide (b.toInt ≤ a.toInt)),
         (.dyBltu t w, 0x34, decide (a.toNat < b.toNat)), (.dyBgeu t w, 0x35, decide (b.toNat ≤ a.toNat))] : List (Instr × Nat × Bool)),
       s.atPc t r.2.1 w = true → exec r.1 s = .next (s.ends t
         (if r.2.2 then { s.tiles[t] with pc := ((s.tiles[t].pc : Int) + w.low.toInt).toNat } else s.tiles[t].advance))) ∧
 (∀ (t : TileId) (w : DyWord) (s : State), s.runs t →
     (s.atPc t 0x36 w = true → exec (.dyJmp t w) s = .next (s.ends t { s.tiles[t] with pc := ((s.tiles[t].pc : Int) + w.low.toInt).toNat })) ∧
     (s.atPc t 0x3E w = true → exec (.dyNop t w) s = .next (s.ends t s.tiles[t].advance)) ∧
     (s.atPc t 0x37 w = true → exec (.dyCall t w) s = .next (s.ends t
       { s.tiles[t] with pc := ((s.tiles[t].pc : Int) + w.low.toInt).toNat, ret := (s.tiles[t].pc + 1) :: s.tiles[t].ret })) ∧
     (∀ a rest, s.atPc t 0x38 w = true → s.tiles[t].ret = a :: rest → exec (.dyRet t w) s = .next (s.ends t { s.tiles[t] with pc := a, ret := rest })))

/-- R92: loop reads its count once, zeroes its counter and repeats the body; a count of 0 skips it. lbz and lbnz leave the innermost loop when their test holds.
R92: after the instruction at `pc` the address is pc + 1 where no loop ends there; at the end of the innermost loop's body the body is repeated while iterations are left, its counter one
higher, and otherwise the loop is left. -/
def Obligations.LoopResults : Prop :=
 (∀ (t : TileId) (w : DyWord) (s : State), s.runs t → s.tiles[t].busyS [w.a] = false →
     let tl := s.tiles[t]
     let n := (tl.sreg w.a).toNat % 2 ^ 32
     let last := ((tl.pc : Int) + w.low.toInt).toNat
     (s.atPc t 0x39 w = true → n = 0 → exec (.dyLoop t w) s = .next (s.ends t (tl.advanceFrom last))) ∧
     (∀ k : Fin 4, w.d.toNat = k.val → s.atPc t 0x39 w = true → n ≠ 0 →
       exec (.dyLoop t w) s = .next (s.ends t ({ tl with lc := tl.lc.set k 0, loops := { depth := k, first := tl.pc + 1, last, left := n } :: tl.loops }).advance)) ∧
     (∀ r ∈ ([(.dyLbz t w, 0x3A, true), (.dyLbnz t w, 0x3B, false)] : List (Instr × Nat × Bool)), s.atPc t r.2.1 w = true →
       (decide (tl.sreg w.a = 0) ≠ r.2.2 → exec r.1 s = .next (s.ends t tl.advance)) ∧
       (∀ f rest, decide (tl.sreg w.a = 0) = r.2.2 → tl.loops = f :: rest → exec r.1 s = .next (s.ends t ({ tl with loops := rest }.advanceFrom f.last))))) ∧
 (∀ (t : Tile) (pc : Nat),
     (t.loops = [] → t.advanceFrom pc = { t with pc := pc + 1 }) ∧
     (∀ f rest, t.loops = f :: rest → f.last ≠ pc → t.advanceFrom pc = { t with pc := pc + 1 }) ∧
     (∀ f rest, t.loops = f :: rest → f.last = pc → 1 < f.left →
       t.advanceFrom pc = { t with pc := f.first, loops := { f with left := f.left - 1 } :: rest, lc := t.lc.set f.depth (t.lc[f.depth] + 1) }) ∧
     (∀ f rest, t.loops = f :: rest → f.last = pc → f.left ≤ 1 → t.advanceFrom pc = { t with loops := rest }.advanceFrom pc))

/-- R107, Table 5.9: trap ends the kernel with a fault; the tile's fault registers then name the Stall, cause 5 and the low 16 bits of IMM, the address, the kernel and the batch. A tile
with nothing staged and no quarantine waiting is then without a kernel, all else of it as it was.
R165, R85: end takes effect once the stationary loader, the array and the MV path are idle; a tile with nothing staged and no quarantine waiting is then without a kernel, its registers
and store as they were. While a unit works, or an amoadd that writes s1 is outstanding (R105), end waits. -/
def Obligations.EndTrapResults : Prop :=
 (∀ (t : TileId) (w : DyWord) (s : State) (r : Running), s.tiles[t].run = some r → s.atPc t 0x3D w = true →
     ∃ u : State, exec (.dyTrap t w) s = .next u.settle ∧ u.tiles[t].fInfo = BitVec.ofNat 32 (5 + r.stall.val * 2 ^ 12 + w.low.toNat % 2 ^ 16 * 2 ^ 16) ∧
       u.tiles[t].fPc = BitVec.ofNat 32 s.tiles[t].pc ∧ u.tiles[t].fKh.toNat = r.item.handle.toNat ∧ u.tiles[t].fBatch = BitVec.ofNat 32 r.item.batch ∧
       (s.tiles[t].staged = none → s.tiles[t].quar = .none →
         u.tiles[t] = { s.tiles[t] with run := none, last := some r, loops := [], ret := [], fInfo := u.tiles[t].fInfo, fPc := u.tiles[t].fPc, fKh := u.tiles[t].fKh, fBatch := u.tiles[t].fBatch })) ∧
 (∀ (t : TileId) (w : DyWord) (s : State) (r : Running), s.tiles[t].run = some r → s.atPc t 0x3C w = true →
     (s.tiles[t].mstl = none → s.tiles[t].mat = [] → s.tiles[t].mv = [] → s.tiles[t].busyS [1] = false → s.tiles[t].staged = none → s.tiles[t].quar = .none →
       ∃ u : State, exec (.dyEnd t w) s = .next u.settle ∧ u.tiles[t] = { s.tiles[t] with run := none, last := some r, loops := [], ret := [] }) ∧
     (s.tiles[t].mstl ≠ none ∨ s.tiles[t].mat ≠ [] ∨ s.tiles[t].mv ≠ [] ∨ s.tiles[t].busyS [1] = true → exec (.dyEnd t w) s = .next s.tick))

/-- Table 4.6, R88, R94, R169, R170: each lane-wise vector instruction writes, in every active lane, the exact result narrowed once (integers wrapped or saturated, floats rounded), and keeps
every inactive lane. -/
def Obligations.VectorLaneResults : Prop :=
  ∀ (t : TileId) (w : DyWord) (s : State), s.runs t → s.tiles[t].busyV [w.d.toNat, w.a.toNat, w.b.toNat] = false →
    let sat := w.low.getLsbD 0
    let int := fun (f : Int → Int → Int) (g : FVal → FVal → FVal) (x y : Nat) =>
      if tyInt w.t then narrowInt w.t sat (f (laneInt w.t x) (laneInt w.t y)) else fencode (tyFmt w.t) (g (fdecode (tyFmt w.t) x) (fdecode (tyFmt w.t) y))
    ∀ r ∈ ([(.dyVadd t w, 0x40, int (· + ·) fadd), (.dyVsub t w, 0x41, int (· - ·) fun x y => fadd x (fneg y)), (.dyVmul t w, 0x42, int (· * ·) fmul),
        (.dyVmin t w, 0x44, fun x y => if tyInt w.t then (if laneInt w.t x < laneInt w.t y then x else y) else fminmax (tyFmt w.t) true x y),
        (.dyVmax t w, 0x45, fun x y => if tyInt w.t then (if laneInt w.t x < laneInt w.t y then y else x) else fminmax (tyFmt w.t) false x y),
        (.dyVabs t w, 0x46, fun x _ => if tyInt w.t then narrowInt w.t sat ((laneInt w.t x).natAbs : Int) else x % 2 ^ (laneBits w.t - 1)),
        (.dyVneg t w, 0x47, fun x _ => if tyInt w.t then narrowInt w.t sat (-laneInt w.t x) else x ^^^ 2 ^ (laneBits w.t - 1)),
        (.dyVand t w, 0x48, fun x y => x &&& y), (.dyVor t w, 0x49, fun x y => x ||| y), (.dyVxor t w, 0x4A, fun x y => x ^^^ y),
        (.dyVshl t w, 0x4B, fun x y => x * 2 ^ (y % laneBits w.t)), (.dyVshr t w, 0x4C, fun x y => x / 2 ^ (y % laneBits w.t)),
        (.dyVsra t w, 0x4D, fun x y => (((if 2 ^ (laneBits w.t - 1) ≤ x then (x : Int) - 2 ^ laneBits w.t else x) / 2 ^ (y % laneBits w.t)) % 2 ^ laneBits w.t).toNat),
        (.dyVmov t w, 0x5E, fun x _ => x)] : List (Instr × Nat × (Nat → Nat → Nat))),
      s.atPc t r.2.1 w = true → ∃ x, exec r.1 s = .next (s.ends t (s.tiles[t].setV w.d x).advance) ∧
        lanesAre s.tiles[t] w (s.tiles[t].vreg w.d) x fun i => r.2.2 (lane (s.tiles[t].vreg w.a) (laneBits w.t) i) (lane (s.tiles[t].vreg w.b) (laneBits w.t) i)

/-- Table 4.6: vfma rounds once; vsel and vperm choose lanes by the predicate and by vB; vslide moves lanes and brings in zeros; vbcast and vins write a scalar; vext reads a lane, and
vbin the signs of 64 F32 lanes (R170).
R171, Table 7.3: vcvt converts between element types; where the destination has as many or more lanes the source fills one part of it, elsewhere one part of the source fills it. -/
def Obligations.VectorMoveResults : Prop :=
 (∀ (t : TileId) (w : DyWord) (s : State), s.runs t → s.tiles[t].busyV [w.d.toNat, w.a.toNat, w.b.toNat, (DyC w).toNat] = false → s.tiles[t].busyS [w.a, w.d] = false →
     let tl := s.tiles[t]
     let at_ := fun (r : BitVec 5) (i : Nat) => lane (tl.vreg r) (laneBits w.t) i
     (∀ r ∈ ([(.dyVfma t w, 0x43, fun i =>
           if tyInt w.t then narrowInt w.t (w.low.getLsbD 0) (laneInt w.t (at_ w.a i) * laneInt w.t (at_ w.b i) + laneInt w.t (at_ (DyC w) i))
           else fencode (tyFmt w.t) (fadd (fmul (fdecode (tyFmt w.t) (at_ w.a i)) (fdecode (tyFmt w.t) (at_ w.b i))) (fdecode (tyFmt w.t) (at_ (DyC w) i)))),
         (.dyVbcast t w, 0x4F, fun _ => (tl.sreg w.a).toNat), (.dyVperm t w, 0x59, fun i => at_ w.a (at_ w.b i % lanesOf w.t)),
         (.dyVslide t w, 0x5A, fun i => if 0 ≤ (i : Int) + w.low.toInt ∧ (i : Int) + w.low.toInt < lanesOf w.t then at_ w.a ((i : Int) + w.low.toInt).toNat else 0)] :
         List (Instr × Nat × (Nat → Nat))),
       s.atPc t r.2.1 w = true → ∃ x, exec r.1 s = .next (s.ends t (tl.setV w.d x).advance) ∧ lanesAre tl w (tl.vreg w.d) x r.2.2) ∧
     (s.atPc t 0x58 w = true → ∃ x, exec (.dyVsel t w) s = .next (s.ends t (tl.setV w.d x).advance) ∧
       ∀ i < lanesOf w.t, lane x (laneBits w.t) i = if tl.active w w.t i then at_ w.a i else at_ w.b i) ∧
     (s.atPc t 0x51 w = true → ∃ x, exec (.dyVins t w) s = .next (s.ends t (tl.setV w.d x).advance) ∧
       ∀ i < lanesOf w.t, lane x (laneBits w.t) i = if i = w.low.toNat then (tl.sreg w.a).toNat % 2 ^ laneBits w.t else at_ w.d i) ∧
     (s.atPc t 0x50 w = true → exec (.dyVext t w) s = .next (s.ends t (tl.setS w.d (BitVec.ofNat 64 (at_ w.a w.low.toNat))).advance)) ∧
     (s.atPc t 0x5F w = true → ∃ x, exec (.dyVbin t w) s = .next (s.ends t (tl.setS w.d x).advance) ∧
       ∀ i < 64, x.getLsbD i = (tl.active w w.t i && fltLt (.fin false 0 0) (fdecode fmtF32 (lane (tl.vreg w.a) 32 i))))) ∧
 (∀ (t : TileId) (w : DyWord) (s : State), s.runs t → s.tiles[t].busyV [w.d.toNat, w.a.toNat] = false → s.atPc t 0x4E w = true →
     let src : BitVec 4 := w.low.extractLsb' 12 4
     let md : RMode := if w.low.getLsbD 0 then .rz else .rn
     let n := min (lanesOf src) (lanesOf w.t)
     let from_ := w.low.toNat / 256 % 8 * n
     ∃ x, exec (.dyVcvt t w) s = .next (s.ends t (s.tiles[t].setV w.d x).advance) ∧ lanesAre s.tiles[t] w (s.tiles[t].vreg w.d) x fun i =>
       if lanesOf src ≤ lanesOf w.t then
         (if from_ ≤ i ∧ i < from_ + n then cvtLane src w.t md (lane (s.tiles[t].vreg w.a) (laneBits src) (i - from_)) else lane (s.tiles[t].vreg w.d) (laneBits w.t) i)
       else cvtLane src w.t md (lane (s.tiles[t].vreg w.a) (laneBits src) (from_ + i)))

/-- Table 4.6: vexp, vrcp and vrsqrt of the F32 lanes: a NaN gives the canonical NaN, infinities and zeros their limits. Another lane takes the rounded result, moved by at most 2 units
in the last place; how far is a free value (log 12). -/
def Obligations.ApproximationResults : Prop :=
  ∀ (t : TileId) (w : DyWord) (s : State), s.runs t → s.tiles[t].busyV [w.d.toNat, w.a.toNat] = false →
    ∀ r ∈ ([(.dyVexp t w, 0x5B, 0, 0x7F800000), (.dyVrcp t w, 0x5C, 0x80000000, 0), (.dyVrsqrt t w, 0x5D, 0x7FC00000, 0)] : List (Instr × Nat × Nat × Nat)),
      s.atPc t r.2.1 w = true → ∃ x, exec r.1 s = .next (s.ends t (s.tiles[t].setV w.d x).advance) ∧
        ∀ i < 64, let v := lane (s.tiles[t].vreg w.a) 32 i
          (s.tiles[t].active w w.t i = false → lane x 32 i = lane (s.tiles[t].vreg w.d) 32 i) ∧
          (s.tiles[t].active w w.t i = true → 0x7F800000 < v % 2 ^ 31 → lane x 32 i = 0x7FC00000) ∧
          (s.tiles[t].active w w.t i = true → v = 0xFF800000 → lane x 32 i = r.2.2.1) ∧
          (s.tiles[t].active w w.t i = true → v = 0x7F800000 → lane x 32 i = r.2.2.2) ∧
          (s.tiles[t].active w w.t i = true → r.2.1 ≠ 0x5B → v = 0 → lane x 32 i = 0x7F800000) ∧
          (s.tiles[t].active w w.t i = true → r.2.1 ≠ 0x5B → v = 0x80000000 → lane x 32 i = 0xFF800000) ∧
          (s.tiles[t].active w w.t i = true → ∀ n m e, fdecode fmtF32 v = .fin n m e →
            (r.2.1 = 0x5B → ∃ k : Fin 5, lane x 32 i = if expRound n m e = 0x7F800000 then 0x7F800000 else ulpMove (expRound n m e) k) ∧
            (r.2.1 = 0x5C → m ≠ 0 → ∃ k : Fin 5, let q := fdivRound fmtF32 (.fin n 1 0) (.fin false m e); lane x 32 i = if fdecode fmtF32 q = .inf n then q else ulpMove q k) ∧
            (r.2.1 = 0x5D → m ≠ 0 → n = true → lane x 32 i = 0x7FC00000) ∧
            (r.2.1 = 0x5D → m ≠ 0 → n = false → ∃ k : Fin 5, let f := scaleFrac m 1 e; lane x 32 i = ulpMove (fround fmtF32 false (sqrtScaled f.2 f.1 120) (2 ^ 120)) k))

/-- Table 4.6, R88: vld reads 256 bytes at a multiple of 64 and vst writes those of its active lanes; only they are accessed.
Table 4.6, R167: vgather reads one element for each active lane at the index that vB's lane gives; vscatter writes no byte of the store outside the elements that its active lanes name. -/
def Obligations.VectorMemoryResults : Prop :=
 (∀ (t : TileId) (w : DyWord) (s : State), s.runs t →
     let tl := s.tiles[t]
     (let a := (tl.sreg w.a + w.low.signExtend 64).toNat
      s.atPc t 0x52 w = true → tl.busyS [w.a] = false → tl.busyV [w.d.toNat] = false → a % 64 = 0 →
       (∀ b < 256, tl.activeByte w b = true → a + b < 0x1F0000 ∧ tl.marked (a + b) 1 = false) →
       ∃ x, exec (.dyVld t w) s = .next (s.ends t (tl.setV w.d x).advance) ∧
         ∀ b < 256, lane x 8 b = if tl.activeByte w b then (tl.byte (a + b)).toNat else lane (tl.vreg w.d) 8 b) ∧
     (let a := (tl.sreg w.b + w.low.signExtend 64).toNat
      s.atPc t 0x53 w = true → tl.busyS [w.b] = false → tl.busyV [w.a.toNat] = false → a % 64 = 0 → (∀ b < 256, tl.activeByte w b = true → a + b < 0x1F0000) →
       ∃ m k, exec (.dyVst t w) s = .next (s.ends t { tl.advance with store := m, marks := k }) ∧
         ∀ x, mapGet 0 m x = if a ≤ x ∧ x < a + 256 ∧ tl.activeByte w (x - a) then BitVec.ofNat 8 (lane (tl.vreg w.a) 8 (x - a)) else tl.byte x)) ∧
 (∀ (t : TileId) (w : DyWord) (s : State), s.runs t →
     let tl := s.tiles[t]
     let bits := laneBits w.t
     (s.atPc t 0x54 w = true → tl.busyS [w.a] = false → tl.busyV [w.d.toNat, w.b.toNat] = false →
       (∀ i < lanesOf w.t, tl.active w w.t i = true → let e := elemAddr w.t (tl.sreg w.a).toNat (lane (tl.vreg w.b) bits i); e.1 + e.2 ≤ 0x1F0000 ∧ tl.marked e.1 e.2 = false) →
       ∃ x, exec (.dyVgather t w) s = .next (s.ends t (tl.setV w.d x).advance) ∧
         lanesAre tl w (tl.vreg w.d) x fun i => tl.elem w.t (tl.sreg w.a).toNat (lane (tl.vreg w.b) bits i)) ∧
     (s.atPc t 0x55 w = true → tl.busyS [w.b] = false → tl.busyV [w.a.toNat, (DyC w).toNat] = false →
       (∀ i < lanesOf w.t, tl.active w w.t i = true → let e := elemAddr w.t (tl.sreg w.b).toNat (lane (tl.vreg (DyC w)) bits i); e.1 + e.2 ≤ 0x1F0000) →
       ∃ m k, exec (.dyVscatter t w) s = .next (s.ends t { tl.advance with store := m, marks := k }) ∧
         ∀ x, (∀ i < lanesOf w.t, tl.active w w.t i = true → let e := elemAddr w.t (tl.sreg w.b).toNat (lane (tl.vreg (DyC w)) bits i); x < e.1 ∨ e.1 + e.2 ≤ x) →
           mapGet 0 m x = tl.byte x))

/-- Table 4.6: vcmp writes one predicate bit for each lane of its type, keeps the bits of inactive lanes and clears the bits beyond; vred writes one scalar register, for I8 to U32 the
sum (SUB 0), the greatest (1) or the least (2) of the active lanes.
R95, Table 4.7: the predicate instructions work on all 256 bits; vpfirst sets the first min(sA, 256), and vpcnt counts among the lanes of its type. -/
def Obligations.CompareReducePredicateResults : Prop :=
 (∀ (t : TileId) (w : DyWord) (s : State), s.runs t →
     let tl := s.tiles[t]
     let at_ := fun (r : BitVec 5) (i : Nat) => lane (tl.vreg r) (laneBits w.t) i
     (s.atPc t 0x57 w = true → tl.busyV [w.a.toNat, w.b.toNat] = false →
       ∃ x, exec (.dyVcmp t w) s = .next (s.ends t (tl.setPred w.d x).advance) ∧
         ∀ i < 256, x.getLsbD i = if lanesOf w.t ≤ i then false else if tl.active w w.t i then cmpLane w.t (w.low.toNat % 8) (at_ w.a i) (at_ w.b i) else (tl.pred w.d).getLsbD i) ∧
     (s.atPc t 0x56 w = true → tl.busyS [w.d] = false → tl.busyV [w.a.toNat] = false →
       ∃ x, exec (.dyVred t w) s = .next (s.ends t (tl.setS w.d x).advance) ∧
         (tyInt w.t = true → w.low.toNat % 4 = 0 →
           x = BitVec.ofInt 64 (((List.range (lanesOf w.t)).filter fun i => tl.active w w.t i).map fun i => laneInt w.t (at_ w.a i)).sum) ∧
         (tyInt w.t = true → w.low.toNat % 4 ≠ 0 → (∃ i < lanesOf w.t, tl.active w w.t i = true) →
           ∃ i < lanesOf w.t, tl.active w w.t i = true ∧ x = BitVec.ofInt 64 (laneInt w.t (at_ w.a i)) ∧
             ∀ j < lanesOf w.t, tl.active w w.t j = true →
               if w.low.toNat % 4 = 1 then laneInt w.t (at_ w.a j) ≤ laneInt w.t (at_ w.a i) else laneInt w.t (at_ w.a i) ≤ laneInt w.t (at_ w.a j)))) ∧
 (∀ (t : TileId) (w : DyWord) (s : State), s.runs t → s.tiles[t].busyS [w.d, w.a] = false →
     let tl := s.tiles[t]
     (∀ r ∈ ([(.dyVpand t w, 0x80, fun i => (tl.pred w.a).getLsbD i && (tl.pred w.b).getLsbD i), (.dyVpor t w, 0x81, fun i => (tl.pred w.a).getLsbD i || (tl.pred w.b).getLsbD i),
         (.dyVpxor t w, 0x82, fun i => (tl.pred w.a).getLsbD i != (tl.pred w.b).getLsbD i), (.dyVpnot t w, 0x83, fun i => !(tl.pred w.a).getLsbD i),
         (.dyVpfirst t w, 0x84, fun i => decide (i < (tl.sreg w.a).toNat))] : List (Instr × Nat × (Nat → Bool))),
       s.atPc t r.2.1 w = true → ∃ x, exec r.1 s = .next (s.ends t (tl.setPred w.d x).advance) ∧ ∀ i < 256, x.getLsbD i = r.2.2 i) ∧
     (s.atPc t 0x85 w = true → exec (.dyVpcnt t w) s = .next (s.ends t
       (tl.setS w.d (BitVec.ofNat 64 ((List.range (min (lanesOf w.t) 256)).filter fun i => (tl.pred w.a).getLsbD i).length)).advance)))

/-! ### Matrix array and MV path -/

/-- R147–R149, R157, R159, Tables 6.1, 6.4: what the matrix instructions do at their issue on operands that pass their checks: the stationary load and the operation wait in their unit with
what they have read, mswap exchanges the stationary banks, macz zeroes an accumulator that nothing writes.
R153, R156, R159: with the array at full activity the first mmul enters the grid; at rest the ramp begins; an mmul whose accumulator an earlier macst still reads does not enter.
R146, Table 4.12: an mmul whose row count is 0 or above 128, or which comes before any mswap, or whose types do not pair, faults with OPERAND before any other check. -/
def Obligations.MatrixIssueResults : Prop :=
 (∀ (t : TileId) (w : DyWord) (s : State), s.runs t →
     let tl := s.tiles[t]
     let a := (tl.sreg w.a).toNat
     let b := (tl.sreg w.b).toNat
     (s.atPc t 0x90 w = true → tl.busyS [w.a] = false → tl.mstl = none → a % 256 = 0 → a + statBytes w.t ≤ 0x1F0000 → tl.marked a (statBytes w.t) = false →
       exec (.dyMstl t w) s = .next (s.ends t { tl.advance with mstl := some ⟨w.t, tl.read a (statBytes w.t)⟩ })) ∧
     (s.atPc t 0x91 w = true → tl.mstl = none → exec (.dyMswap t w) s = .next (s.ends t { tl.advance with st0 := tl.st1, st1 := tl.st0, swapped := true })) ∧
     (∀ (st : Stationary) (k : Fin 2), k.val = w.d.toNat → s.atPc t 0x92 w = true → tl.busyS [w.a, w.b] = false → 1 ≤ b → b ≤ 128 → tl.swapped = true → tl.st0 = some st →
       pairs st.t w.t = true → a % 256 = 0 → a + skewLines w.t b * lineBytes w.t ≤ 0x1F0000 → tl.marked a (skewLines w.t b * lineBytes w.t) = false →
       exec (.dyMmul t w) s = .next (s.ends t (Tile.enter { tl with
         mat := tl.mat ++ [.mmul k b w.t st (tl.read a (skewLines w.t b * lineBytes w.t)) (w.low.getLsbD 0) true] }).advance)) ∧
     (∀ k : Fin 2, k.val = w.d.toNat → s.atPc t 0x93 w = true → tl.busyS [w.a, w.b, DyC w] = false →
       let c := (tl.sreg (DyC w)).toNat
       let r := tl.convRec b
       a % 64 = 0 → b % 64 = 0 → c % 64 = 0 → b + 0xC40 ≤ 0x1F0000 → tl.marked b 0x400 = false → (r.zp = true → tl.marked (b + 0x400) 0x200 = false) → tl.marked (b + 0x600) 0x240 = false → (r.corrEn = true → r.corr % 64 = 0 ∧ tl.marked r.corr 32768 = false) →
       (∀ x ∈ macstRegions w.t a b c r, x.1 + x.2 ≤ 0x1F0000) → 1 ≤ r.rows → r.rows ≤ 128 → anyOverlap (macstRegions w.t a b c r) = false →
       exec (.dyMacst t w) s = .next (s.ends t { tl.advance with mat := tl.mat ++ [.macst k w.t a b c] })) ∧
     (∀ k : Fin 2, k.val = w.d.toNat → s.atPc t 0x94 w = true → (∀ o ∈ tl.mat, o.acc ≠ k) → exec (.dyMacz t w) s = .next (s.ends t { tl.advance with acc := tl.acc.set k [] })) ∧
     (let n := w.low.toNat % 8 + 1
      s.atPc t 0x95 w = true → tl.busyS [w.b] = false → tl.busyV ((List.range n).map (w.a.toNat + ·)) = false → b % 256 = 0 → b + 16384 ≤ 0x1F0000 → tl.marked b 16384 = false →
       exec (.dyMvx t w) s = .next (s.ends t { tl.advance with
         mv := tl.mv ++ [⟨w.t, w.d.toNat, n, (List.range n).map fun i => tl.vreg (BitVec.ofNat 5 (w.a.toNat + i)), tl.read b 16384⟩] }))) ∧
 (∀ (t : TileId) (w : DyWord) (s : State), s.runs t → s.atPc t 0x92 w = true → s.tiles[t].busyS [w.a, w.b] = false →
     ((s.tiles[t].sreg w.b).toNat = 0 ∨ 128 < (s.tiles[t].sreg w.b).toNat ∨ s.tiles[t].swapped = false ∨ s.tiles[t].st0 = none ∨
       ∃ st, s.tiles[t].st0 = some st ∧ pairs st.t w.t = false) →
     exec (.dyMmul t w) s = .next (s.tick.faultKernel t .operand 0)) ∧
 (∀ (tl : Tile) (k : Fin 2) (m : Nat) (ty : BitVec 4) (w : Stationary) (l : List Byte) (z : Bool) (rest : List MatOp), tl.mat = .mmul k m ty w l z true :: rest →
     (tl.activity = .up → ∃ x, tl.enter = { tl with mat := .mmul k m ty w l z false :: x } ∧ x.length = rest.length) ∧
     (tl.activity ≠ .up → tl.enter = { tl with activity := .ramping })) ∧
 (∀ (tl : Tile) (k : Fin 2) (m a b c : Nat) (ty tz : BitVec 4) (w : Stationary) (l : List Byte) (z : Bool) (rest : List MatOp),
     tl.mat = .macst k tz a b c :: .mmul k m ty w l z true :: rest → tl.enter = tl)

/-- R144, R145, R148, R159, R160, R163: how the units of the array complete: a stationary load fills st1; the ramp lets the mmul go on, and 64 idle CCLK end it; an mmul adds each column sum to
its accumulator, rounded to binary32, or starts from zero with .z, and rows beyond M keep their values; an mvx adds its line sums to each lane. An item that waits for the units
may start with the last of them (R166); with none staged nothing follows. -/
def Obligations.MatrixCompletions : Prop :=
  ∀ (t : TileId) (s : State),
    let tl := s.tiles[t]
    (∀ x, tl.mstl = some x → exec (.mstlDone t) s = .next ((s.ends t { tl with st1 := some x, mstl := none }).unitsDone t)) ∧
    (tl.activity = .ramping → exec (.activityRampDone t) s = .next (s.ends t (Tile.enter { tl with activity := .up }))) ∧
    (tl.activity = .up → (∀ o ∈ tl.mat, o.streams = false) → exec (.arrayIdleTimeout t) s = .next (s.ends t { tl with activity := .down })) ∧
    (∀ k m ty w l z rest, tl.mat = .mmul k m ty w l z false :: rest →
      ∃ acc, exec (.mmulDone t) s = .next ((s.ends t { tl with acc := tl.acc.set k acc, mat := rest }).unitsDone t) ∧
        ∀ r j, j < 128 → mapGet 0 acc (r * 128 + j) =
          if r < m then f32Add (if z then 0 else mapGet 0 tl.acc[k] (r * 128 + j)) (columnSum w ty l r j) else if z then 0 else mapGet 0 tl.acc[k] (r * 128 + j)) ∧
    (∀ m rest, tl.mv = m :: rest → m.acts.length = m.n → m.vd + m.n ≤ 32 →
      ∃ v, exec (.mvxDone t) s = .next ((s.ends t { tl with v, mv := rest }).unitsDone t) ∧
        ∀ i : Fin 32, ∀ j < 64, lane v[i] 32 j =
          if h : m.vd ≤ i.val ∧ i.val < m.vd + m.n then (mvLane m.t m.wts (m.acts.getD (i.val - m.vd) 0) (BitVec.ofNat 32 (lane tl.v[i] 32 j)) j).toNat else lane tl.v[i] 32 j) ∧
    (tl.staged = none → s.unitsDone t = s)

/-- R173–R181: a macst completes by writing its rows, scales, zero points and side list; every other byte of the tile store and every register stand, and an mmul that
waited for its accumulator may enter. A side list that needs more than its capacity stops the kernel. -/
def Obligations.MacstCompletion : Prop :=
  ∀ (t : TileId) (s : State) (k : Fin 2) (ty : BitVec 4) (a b c : Nat) (rest : List MatOp), s.tiles[t].mat = .macst k ty a b c :: rest → (s.tiles[t].convRec b).rows ≤ 128 →
    let tl := s.tiles[t]
    let r := tl.convRec b
    let ys := (List.range r.rows).map fun row => (List.range 128).map fun j => macstY tl tl.acc[k] b r row j
    let rows := macstRows ty r.shift r.cap 0 ys
    ∃ m ks, (∀ x, (x < a ∨ a + r.rows * outPitch ty ≤ x) → (x < b + 0x840 ∨ b + 0xC40 ≤ x) → (x < c ∨ c + 320 + 8 * r.cap ≤ x) → mapGet 0 m x = tl.byte x) ∧
      let u := s.ends t (Tile.enter { tl with store := m, marks := ks, mat := rest })
      ((rows.map fun x => x.esc.length).sum ≤ r.cap → exec (.macstDone t) s = .next (u.unitsDone t)) ∧
      (r.cap < (rows.map fun x => x.esc.length).sum → exec (.macstDone t) s = .next ((u.sideOverflow t).settle.unitsDone t))

/-! ### DMA, atomic additions, selection, queues -/

/-- R99: the issue of a dmain or dmaout on an idle tag makes the checks in their order, and then the tag is busy with the DMA; a DMA of nothing only ends. dmawait waits for the
tags that IMM names. -/
def Obligations.DmaIssueResults : Prop :=
  ∀ (t : TileId) (w : DyWord) (s : State) (tag : Fin 16), s.runs t → tag.val = w.d.toNat →
    let tl := s.tiles[t]
    (∀ r ∈ ([(.dyDmain t w, 0xA0, true), (.dyDmaout t w, 0xA1, false)] : List (Instr × Nat × Bool)), s.atPc t r.2.1 w = true → tl.busyS [w.a, w.b, DyC w] = false →
      tl.tags[tag] = none →
      let d := dmaOf r.2.2 w tl
      (s.tick.dmaCheck tl.fn d = .ok → exec r.1 s = .next ((s.ends t { tl.advance with tags := tl.tags.set tag (some d) }).askPool t tag d)) ∧
      (s.tick.dmaCheck tl.fn d = .empty → exec r.1 s = .next (s.ends t tl.advance)) ∧
      (∀ c, s.tick.dmaCheck tl.fn d = .fault c → exec r.1 s = .next (s.tick.faultKernel t c 0))) ∧
    (s.atPc t 0xA2 w = true → (∀ i : Fin 16, w.low.getLsbD i.val = true → tl.tags[i] = none) → exec (.dyDmawait t w) s = .next (s.ends t tl.advance)) ∧
    (∀ i : Fin 16, s.atPc t 0xA2 w = true → w.low.getLsbD i.val = true → tl.tags[i] ≠ none → exec (.dyDmawait t w) s = .next s.tick)

/-- R99, R121: a dmain without .skew that may read its rows now has copied each of them into the tile store, packed without gaps; it has written nothing else, and its tag is idle.
R99, R121, R340: a dmaout writes its pieces in order until one waits for its staging page; it leaves its tile as it was but for its tag, no other tile changes, and every byte of memory
outside the pieces left to it reads as before. One whose pieces all lie in the HBM of allocations that do not move ends at once, its tag idle. -/
def Obligations.DmaCompletions : Prop :=
 (∀ (t : TileId) (tag : Fin 16) (s : State) (n : StallId) (d : Dma), s.tiles[t].tags[tag] = some d → s.tiles[t].owner = some n → d.inward = true → d.skew = false →
     d.len % 64 = 0 → s.tick.canRead (vfOf n) d.ranges = true → s.tick.txnBusy n (TxnKind.dma t tag) = false →
     (∀ i < d.rows, ∀ j < d.len, (s.serving[n]).kvMasked (d.ga + i * d.stride + j) = false) →
     ∃ u : State, exec (.dmaDone t tag) s = .next (u.unitsDone t) ∧ u.mem.cells = s.mem.cells ∧ u.tiles[t].tags = s.tiles[t].tags.set tag none ∧ u.tiles[t].s = s.tiles[t].s ∧
       (∀ i < d.rows, ∀ j < d.len, u.tiles[t].byte (d.ts + i * d.len + j) = s.byteAt (vfOf n) (d.ga + i * d.stride + j)) ∧
       (∀ x, x < d.ts ∨ d.ts + d.rows * d.len ≤ x → u.tiles[t].byte x = s.tiles[t].byte x)) ∧
 (∀ (t : TileId) (tag : Fin 16) (s : State) (n : StallId) (d : Dma), s.tiles[t].tags[tag] = some d → s.tiles[t].owner = some n → d.inward = false →
     s.tick.txnBusy n (TxnKind.dma t tag) = false →
     let left := d.pieces.drop d.put
     ∃ (u : State) (k : Nat), exec (.dmaDone t tag) s = .next (u.unitsDone t) ∧ k ≤ left.length ∧
       u.tiles = s.tiles.set t { s.tiles[t] with tags := s.tiles[t].tags.set tag (if d.put + k = d.pieces.length then none else some { d with put := d.put + k }) } ∧
       (∀ x, (∀ p ∈ left, x < memKey (vfOf n) p.dst ∨ memKey (vfOf n) p.dst + p.n ≤ x) → mapGet 0 u.mem.cells x = mapGet 0 s.mem.cells x) ∧
       (d.put ≤ d.pieces.length → (∀ p ∈ left, ∃ a, s.allocAt (vfOf n) p.dst = some a ∧ a.tier = .hbm ∧ a.move = none ∧ a.upTo = 0) → u.tiles[t].tags[tag] = none))

/-- R332, R354, R440, Table 14.1: a write within one page of an allocation stores its bytes, unless it is an import that has been withdrawn; every other address of the function, and every
other function's own space, reads as before. -/
def Obligations.MemoryWriteReads : Prop :=
  ∀ (s : State) (f : Fn) (a : Alloc) (x : Nat) (bs : List Byte), s.allocAt f x = some a → ¬ (a.tierAt x = .pool ∧ a.withdrawn = true) → bs ≠ [] → (x - a.base) % 65536 + bs.length ≤ 65536 →
    (x + bs.length ≤ commonsBase ∨ (commonsBase ≤ x ∧ x + bs.length ≤ commonsTop)) →
    (∀ y < 2 ^ 48, (s.writeMem f x bs).byteAt f y = if x ≤ y ∧ y < x + bs.length then bs.getD (y - x) 0 else s.byteAt f y) ∧
    (∀ g y, g ≠ f → y < commonsBase → (s.writeMem f x bs).byteAt g y = s.byteAt g y)

/-- R104, Table 4.11: amoadd names an aligned 8-byte word that the Stall may write and waits; at its completion the register takes the old word and memory the sum, modulo 2^64.
R354: where the exporting module answered the old value, the register takes that, and this module's memory stands. -/
def Obligations.AmoaddResults : Prop :=
  ∀ (t : TileId) (s : State) (n : StallId), s.tiles[t].owner = some n →
    let tl := s.tiles[t]
    (∀ (w : DyWord) (r : Fin 32), r.val = w.d.toNat → s.runs t → s.atPc t 0xC3 w = true → tl.busyS [w.d, w.a, w.b] = false →
      let a := (tl.sreg w.a).toNat
      (a % 8 ≠ 0 → exec (.dyAmoadd t w) s = .next (s.tick.faultKernel t .align 0)) ∧
      (a % 8 = 0 → a < 2 ^ 48 → s.tick.writable (vfOf n) a 8 = true → s.tick.poisoned (vfOf n) a 8 = false → s.importAt (vfOf n) a = none →
        exec (.dyAmoadd t w) s = .next (s.ends t { tl.advance with amo := tl.amo ++ [(r, a, tl.sreg w.b)] }))) ∧
    (∀ (r : Fin 32) (a : Nat) (v : BitVec 64) (al : Alloc), tl.amo = [(r, a, v)] → tl.amoGot = [] → s.tick.txnBusy n (TxnKind.amoOf t r) = false → r ≠ 0 →
      s.allocAt (vfOf n) a = some al → al.tier = .hbm → al.move = none → al.upTo = 0 →
      let old := BitVec.ofNat 64 (s.readNat (vfOf n) a 8)
      ∃ u : State, exec (.amoaddDone t r) s = .next (u.unitsDone t) ∧ u.mem = (s.tick.writeMem (vfOf n) a (toBytesLE 8 (old + v).toNat) (tileDie t)).mem ∧
        u.tiles[t] = { tl with amo := [], s := tl.s.set r old }) ∧
    (∀ (r : Fin 32) (a : Nat) (v g : BitVec 64), tl.amo = [(r, a, v)] → tl.amoGot = [(r, g)] → s.tick.txnBusy n (TxnKind.amoOf t r) = false → r ≠ 0 →
      exec (.amoaddDone t r) s = .next ((s.ends t { tl with amo := [], amoGot := [], s := tl.s.set r g }).unitsDone t))

/-- R217, R219, R220, Table 4.10: vsortkv leaves the 64 pairs of two registers in selection order, and vmergekv the 128 pairs of two lists, in selection order when both lists
are; each pair of value and index keeps together.
R221–R226, R229–R231: topk and tkmerge write a selection record of the first K entries in selection order, zero their working registers and answer the record's flags in sD;
more than 65,536 entries give flag 8 and no record. -/
def Obligations.SortSelectResults : Prop :=
 (∀ (t : TileId) (w : DyWord) (s : State), s.runs t →
     let tl := s.tiles[t]
     let ordered := fun (l : List SelEntry) => List.Pairwise (fun x y => precedes w.t y x = false) l
     (s.atPc t 0xB0 w = true → tl.busyV [w.d.toNat, w.a.toNat] = false →
       ∃ l, exec (.dyVsortkv t w) s = .next (s.ends t (tl.setPairs w.d w.a l).advance) ∧ l.Perm (pairsOf (tl.vreg w.d) (tl.vreg w.a)) ∧ ordered l) ∧
     (let x := pairsOf (tl.vreg w.d) (tl.vreg w.a)
      let y := pairsOf (tl.vreg w.b) (tl.vreg (DyC w))
      s.atPc t 0xB1 w = true → tl.busyV [w.d.toNat, w.a.toNat, w.b.toNat, (DyC w).toNat] = false →
       ∃ l, exec (.dyVmergekv t w) s = .next (s.ends t ((tl.setPairs w.d w.a (l.take 64)).setPairs w.b (DyC w) (l.drop 64)).advance) ∧ l.Perm (x ++ y) ∧ (ordered x → ordered y → ordered l))) ∧
 (∀ (t : TileId) (w : DyWord) (s : State), s.runs t → s.tiles[t].busyS [w.d, w.a, w.b, DyC w] = false → s.tiles[t].busyV workRegs = false →
     let tl := s.tiles[t]
     let a := (tl.sreg w.a).toNat
     let b := (tl.sreg w.b).toNat
     let c := (tl.sreg (DyC w)).toNat
     let post := fun (k : Nat) (r : Selection) => (s.ends t (((tl.writeRecord w.t b k r).clearWork).setS w.d r.flags).advance)
     (let n := c % 2 ^ 17
      let k := c / 2 ^ 32 % 2 ^ 11
      let size := if w.t = 7 then 2 else 4
      s.atPc t 0xB2 w = true → 1 ≤ k → k ≤ 1024 → 1 ≤ n →
       (65536 < n → exec (.dyTopk t w) s = .next (s.ends t ((tl.clearWork).setS w.d 8).advance)) ∧
       (n ≤ 65536 → a % 64 = 0 → b % 64 = 0 → a + n * size ≤ 0x1F0000 → b + recordBytes k ≤ 0x1F0000 → (a + n * size ≤ b ∨ b + recordBytes k ≤ a) →
         tl.marked a (n * size) = false → ∃ r : Selection, exec (.dyTopk t w) s = .next (post k r) ∧ r.count = min k n ∧ r.sel.length = min k n ∧ r.considered = n ∧ r.dups = 0 ∧
           List.Pairwise (fun x y => precedes w.t y x = false) r.sel ∧ (r.flags.getLsbD 0 = decide (n < k)))) ∧
     (let k := c % 2 ^ 11
      let l := c / 2 ^ 16 % 2 ^ 11
      let m := c / 2 ^ 32 % 2 ^ 9
      s.atPc t 0xB3 w = true → 1 ≤ k → k ≤ 1024 → 1 ≤ l → l ≤ 1024 → 1 ≤ m → m ≤ 256 → a % 64 = 0 → b % 64 = 0 → a + m * recordBytes l ≤ 0x1F0000 → b + recordBytes k ≤ 0x1F0000 →
       (a + m * recordBytes l ≤ b ∨ b + recordBytes k ≤ a) →
       (∀ i < m, let p := a + i * recordBytes l; let e := min (ofBytesLE (tl.read (p + 0x14) 2)) l
         tl.marked p 64 = false ∧ tl.markedSome (p + 0x40) (4 * e) = false ∧ tl.markedSome (p + 0x40 + 4 * pad16 l) (4 * e) = false) →
       ∃ r : Selection, exec (.dyTkmerge t w) s = .next (post k r) ∧ r.count = min k r.considered ∧ r.sel.length = r.count ∧
         List.Pairwise (fun x y => precedes w.t y x = false) r.sel ∧ List.Pairwise (fun x y => x.2 ≠ y.2) r.sel))

/-- R103, R107, R305: qpush of a block with a mark faults with POISON; else it appends its 64-byte entry to the Stall's share of a B-die queue and reports 0, or 1 when the share is full; qpop takes the oldest entry into the tile store, or
reports 1 when there is none. -/
def Obligations.QueueResults : Prop :=
  ∀ (t : TileId) (w : DyWord) (s : State) (r : Running), s.tiles[t].run = some r → s.tiles[t].busyS [w.d, w.a] = false →
    let tl := s.tiles[t]
    let a := (tl.sreg w.a).toNat
    let q := w.low.toNat % 16
    let d := tileDie t
    let n := r.stall
    let e := entryOfBytes (tl.read a 64)
    (s.atPc t 0xC0 w = true → a % 64 = 0 → a + 64 ≤ 0x1F0000 → tl.marked a 64 = true → exec (.dyQpush t w) s = .next (s.tick.faultKernel t .poison 0)) ∧
    (s.atPc t 0xC0 w = true → a % 64 = 0 → a + 64 ≤ 0x1F0000 → tl.marked a 64 = false → ((s.serving[n]).requests.any fun x => x.tag = queueTag q e && x.cancelled) = false →
      (s.tick.queueFull n d q = false → ∃ (u : State) (x : QEntry), exec (.dyQpush t w) s = .next u ∧ x.e = e ∧ x.tag = queueTag q e ∧ x.poison = false ∧
        (u.serving[n]).queue d q = (s.serving[n]).queue d q ++ [x] ∧ u.tiles[t] = (tl.setS w.d 0).advance) ∧
      (s.tick.queueFull n d q = true → ∃ u : State, exec (.dyQpush t w) s = .next u ∧ u.serving = s.serving ∧ u.tiles[t] = (tl.setS w.d 1).advance)) ∧
    (s.atPc t 0xC1 w = true → a % 64 = 0 → a + 64 ≤ 0x1F0000 → q ≠ 6 →
      ((s.serving[n]).queue d q = [] → exec (.dyQpop t w) s = .next (s.ends t (tl.setS w.d 1).advance)) ∧
      (∀ x rest, (s.serving[n]).queue d q = x :: rest → ∃ u : State, exec (.dyQpop t w) s = .next u ∧ (u.serving[n]).queue d q = rest ∧
        (∀ i < 64, u.tiles[t].byte (a + i) = BitVec.ofNat 8 (x.e.toNat / 2 ^ (8 * i))) ∧ (∀ y, y < a ∨ a + 64 ≤ y → u.tiles[t].byte y = tl.byte y) ∧
        u.tiles[t].sreg w.d = 0))

/-- R102, R126, R128: spawn puts a work item behind those of the tile's own segment, the oldest of which may stand staged, and reports 0; fence and wait end when the units that they
name are idle, and wait until then. -/
def Obligations.SpawnFenceWaitResults : Prop :=
  ∀ (t : TileId) (w : DyWord) (s : State) (r : Running), s.tiles[t].run = some r →
    let tl := s.tiles[t]
    let n := r.stall
    (∀ (c : Container) (k : Kernel), s.atPc t 0xC2 w = true → tl.busyS (w.d :: argRegs) = false → ((s.serving[n]).keep.containers.find? fun c => c.id = r.cont) = some c →
      c.kernels[w.low.toNat % 65536]? = some k → c.unloading = false → (s.serving[n]).spawnDrops r.item.batch = false → s.tick.boundTooLong n k.handle = false →
      ((s.serving[n]).segment t).length < 32 → ∃ (u : State) (st : Option Item), exec (.dySpawn t w) s = .next u ∧
        u.tiles[t] = ({ tl with staged := st }.setS w.d 0).advance ∧
        st.toList ++ (u.serving[n]).segment t = tl.staged.toList ++ (s.serving[n]).segment t ++
          [{ handle := k.handle, args := (List.range 8).map fun i => tl.sreg (BitVec.ofNat 5 (i + 1)), batch := r.item.batch }]) ∧
    (s.atPc t 0xC4 w = true → tl.mstl = none → tl.mat = [] → tl.mv = [] → (∀ i : Fin 16, tl.tags[i] = none) → exec (.dyFence t w) s = .next (s.ends t tl.advance)) ∧
    (s.atPc t 0xC4 w = true → (tl.mstl ≠ none ∨ tl.mat ≠ [] ∨ tl.mv ≠ [] ∨ ∃ i : Fin 16, tl.tags[i] ≠ none) → exec (.dyFence t w) s = .next s.tick) ∧
    (s.atPc t 0xC5 w = true → ((w.low.getLsbD 0 = true ∧ tl.mat ≠ []) ∨ (w.low.getLsbD 1 = true ∧ tl.mstl ≠ none) ∨ (w.low.getLsbD 2 = true ∧ tl.mv ≠ [])) →
      exec (.dyWait t w) s = .next s.tick) ∧
    (s.atPc t 0xC5 w = true → ¬ ((w.low.getLsbD 0 = true ∧ tl.mat ≠ []) ∨ (w.low.getLsbD 1 = true ∧ tl.mstl ≠ none) ∨ (w.low.getLsbD 2 = true ∧ tl.mv ≠ [])) →
      exec (.dyWait t w) s = .next (s.ends t tl.advance))

/-! ### Tiles, registers, resets, Stalls and the Churn -/

/-- R130, R131: an idle tile in a slot takes the oldest item of the first queue of its search that fits the time left, at TILE_TAKE_ITEM and at its search timer: the item's kernel starts at
its first instruction with the arguments in s1 to s8 and the constants' address in s30. A queue whose item another tile has taken in the same CCLK is passed over.
R109, R139–R141, R442, R448, Table 5.5: a kernel that has run its bound is stopped with OVERRUN; a request, an uncorrectable error and too many corrected errors put an idle tile in quarantine at
once and a running one after its kernel; RELEASE begins a self-test, which a tile passes with its store zero or fails with cause 4. -/
def Obligations.TileEventResults : Prop :=
 (∀ (t : TileId) (s : State) (e : SlotId) (q : WorkQueue) (steal : Bool) (i : Item) (c : Container) (k : Kernel), s.up = true → s.tileSlot t = some e →
     let n := (s.schedEntry e.val).stall
     s.tiles[t].idle = true → s.tiles[t].quar = .none → s.tiles[t].staged = none → s.tick.findWork n t (s.tick.cclkLeft (s.slotEnd e)) [] = some (q, steal, i) → (s.serving[n]).kernel? i.handle = some (c, k) →
     ∀ x ∈ ([.tileTakeItem [t], .tileSearchTimer t] : List Instr), ∃ (u : State) (r : Running), exec x s = .next u ∧ u.tiles[t].run = some r ∧ r.stall = n ∧ r.item = i ∧
       r.bound = k.bound ∧ r.since = s.now + 1 ∧ u.tiles[t].pc = k.start ∧ u.tiles[t].owner = some n ∧ u.tiles[t].store = s.tiles[t].store ∧
       (∀ j < 8, u.tiles[t].sreg (BitVec.ofNat 5 (j + 1)) = i.args.getD j 0) ∧ u.tiles[t].sreg 30 = BitVec.ofNat 64 c.consts ∧
       u.tiles[t].items = s.tiles[t].items + 1 ∧ u.tiles[t].steals = s.tiles[t].steals + (if steal then 1 else 0)) ∧
 (∀ (s : State) (n : StallId) (t : TileId) (left : Nat) (gone : List Taken) (x : WorkQueue × Bool × Item), s.findWork n t left gone = some x →
     gone.contains ⟨n, tileDie t, x.1⟩ = false ∧ (s.serving[n]).bound x.2.2.handle ≤ left ∧ ((s.serving[n]).work (tileDie t) x.1).head? = some x.2.2) ∧
 (∀ (t : TileId) (s : State), s.up = true →
     (∀ r e, s.tiles[t].run = some r → s.tileSlot t = some e → s.tick.boundAt r ≤ s.slotEnd e →
       ∃ u : State, exec (.kernelBoundReached t) s = .next u.settle ∧ u.tiles[t].fInfo = BitVec.ofNat 32 (0x10 + 2 ^ 10 + r.stall.val * 2 ^ 12) ∧
         u.tiles[t].fPc = BitVec.ofNat 32 s.tiles[t].pc ∧ s.boundAt r ≤ u.now) ∧
     (s.tiles[t].quar = .none → s.tiles[t].run = none → s.tiles[t].staged = none → ∃ u : State, exec (.tileQuarantineRequest t) s = .next u.settle ∧ u.tiles[t] = { s.tiles[t] with quar := .quar 1 }) ∧
     (s.tiles[t].quar = .none → s.tiles[t].run ≠ none → exec (.tileQuarantineRequest t) s = .next (s.ends t { s.tiles[t] with quar := .pending 1 }).settle) ∧
     (s.tiles[t].quar = .none → s.tiles[t].run = none → s.tiles[t].staged = none → ∃ u : State, exec (.tileUncorrError t) s = .next u.settle ∧
       u.tiles[t] = { s.tiles[t] with quar := .quar 2 } ∧ u.ras.ue = s.ras.ue + 1) ∧
     (∀ k, s.tiles[t].ce + k ≤ s.ceLimit → ∃ u : State, exec (.tileCeLimit t k) s = .next u.settle ∧ u.tiles[t] = { s.tiles[t] with ce := s.tiles[t].ce + k } ∧
       u.ras.ce = s.ras.ce + BitVec.ofNat 64 k) ∧
     (∀ k, s.ceLimit < s.tiles[t].ce + k → s.tiles[t].quar = .none → s.tiles[t].run = none → s.tiles[t].staged = none →
       ∃ u : State, exec (.tileCeLimit t k) s = .next u.settle ∧ u.tiles[t] = { s.tiles[t] with ce := s.tiles[t].ce + k, quar := .quar 3 }) ∧
     (∀ c, s.tiles[t].quar = .quar c → exec (.tileRelease t) s = .next (s.ends t { s.tiles[t] with quar := .selftest c })) ∧
     (∀ c, s.tiles[t].quar = .selftest c → exec (.tileSelftestDone t true) s = .next (s.ends t { s.tiles[t] with quar := .passed c, store := [], marks := [] })) ∧
     (∀ c, s.tiles[t].quar = .selftest c → s.tiles[t].staged = none → ∃ u : State, exec (.tileSelftestDone t false) s = .next u ∧ u.tiles[t] = { s.tiles[t] with quar := .quar 4 }))

/-- R27, R28, R38, R45, R49, R50: the checks of a register write, in their order: an unmapped offset, byte enables that do not cover the word, a locked register, a class Q register of a unit that
runs. Each records the offset and its cause in the page of the function that wrote, and changes no register. The words of a larger access follow at ascending offsets, each on its own. -/
def Obligations.RegisterWriteRejections : Prop :=
  ∀ (f : Fn) (off : BitVec 28) (be : BitVec 4) (v : BitVec 32) (more : List BarWord) (s : State), s.up = true → s.mgt.linkUp = true → s.barOpen f = true →
    let o' := barOff f off
    let after := fun (t : State) => exec (.registerWrite f off ⟨be, v⟩ more) s = .next (let u := t.writeWords f (off + 4) more; if u.up then u.settle else u)
    let rejected := fun (cause : BitVec 3) => after (s.tick.reject f o' cause)
    (decodeOff f o' = none → rejected 3) ∧
    (∀ b o, decodeOff f o' = some (b, o) → be ≠ 0xF → rejected 2) ∧
    (∀ b o, decodeOff f o' = some (b, o) → be = 0xF → regAt b o = none → after s.tick) ∧
    (∀ b o r, decodeOff f o' = some (b, o) → be = 0xF → regAt b o = some r → s.locked b r = true → b ≠ .glb → rejected 1) ∧
    (∀ b o r, decodeOff f o' = some (b, o) → be = 0xF → regAt b o = some r → (s.locked b r = false ∨ b = .glb) → (r.kind = .rw ∨ r.kind = .wo) → r.cls = .q →
      s.unitStopped b o v = false → rejected 0)

/-- R40–R46: a write that passes the checks sets the fields that the register has: at once for class L and class Q, and for class T while the Churn is halted; a class T value waits for the next boundary
while it runs, and is what a read answers meanwhile. No other register changes. -/
def Obligations.RegisterWriteResults : Prop :=
  ∀ (f : Fn) (off : BitVec 28) (v : BitVec 32) (s : State) (b : Block) (o : Nat) (r : RegDesc), s.up = true → s.mgt.linkUp = true → s.barOpen f = true →
    decodeOff f (barOff f off) = some (b, o) → regAt b o = some r → s.locked b r = false → r.kind = .rw → rctrlAt b o = none → splitAt b o = none → b ≠ .glb →
    (o = 0 → b ≠ .chn ∧ ∀ p, b ≠ .fab p) → (r.cls = .q → s.unitStopped b o v = true) →
    let new := s.inRange b o (v &&& r.mask) ||| (r.reset &&& ~~~r.mask)
    ∃ u : State, exec (.registerWrite f off ⟨0xF, v⟩ []) s = .next u.settle ∧ (∀ c p, regKey c p ≠ regKey b o → u.reg c p = s.reg c p) ∧ u.regWritten b o = new ∧
      (r.cls ≠ .t ∨ s.halted = true → u.reg b o = new) ∧ (r.cls = .t → s.halted = false → s.unitStopped b o v = false → u.reg b o = s.reg b o)

/-- R28, R29, R36, R38, R45, R51: a status register is cleared only by a write that carries its SEQ; an event in the same BCLK stays set and counts in SEQ; clearing CFG_REJECT zeroes the function's
COUNT, and a rejected write in the same BCLK is recorded after it. GLB_LOCK bits once set stay set. A read answers the bytes that its byte enables name. A read of the low half of a 64-bit value holds the
high half for the next read, which one access of both words shows; the low half written to a class L pair reads back, and waits for the high half. -/
def Obligations.StatusLockSplitResults : Prop :=
  ∀ (s : State), s.up = true → s.mgt.linkUp = true →
    (∀ f off v ev b o r x, s.barOpen f = true → decodeOff f (barOff f off) = some (b, o) → regAt b o = some r → r.kind = .status → statAt b o = some x → (s.locked b r = false ∨ b = .glb) →
      ∃ u : State, exec (.statusRegisterClear f off v ev none) s = .next u.settle ∧
        (u.stat x).bits = ((if v.toNat / 2 ^ 24 = (s.stat x).seq.toNat then (s.stat x).bits &&& ~~~((v &&& r.mask).setWidth 24) else (s.stat x).bits) ||| (ev &&& r.mask.setWidth 24)) ∧
        ((s.stat x).stamp ≤ s.now → (u.stat x).seq = (s.stat x).seq + if ev &&& r.mask.setWidth 24 = 0 then 0 else 1)) ∧
    (∀ f off v b o r x, s.barOpen f = true → decodeOff f (barOff f off) = some (b, o) → regAt b o = some r → r.kind = .status → statAt b o = some x → (s.locked b r = false ∨ b = .glb) →
      v.toNat / 2 ^ 24 ≠ (s.stat x).seq.toNat → exec (.statusRegisterClear f off v 0 none) s = .next s.tick.settle) ∧
    (∀ f off v ev b o r x, s.barOpen f = true → decodeOff f (barOff f off) = some (b, o) → regAt b o = some r → r.kind = .status → statAt b o = some x →
      x = (match stallOf f with | some n => .vf n | none => .glb) → (s.locked b r = false ∨ b = .glb) → v.toNat / 2 ^ 24 = (s.stat x).seq.toNat → (v &&& r.mask).getLsbD 0 = true →
      (∃ u : State, exec (.statusRegisterClear f off v ev none) s = .next u.settle ∧ u.host[f].rejCount = 0) ∧
      ∀ y : LateWrite, decodeOff f (barOff f y.off) = none ∨ y.be ≠ 0xF → ∃ u : State, exec (.statusRegisterClear f off v ev (some y)) s = .next u.settle ∧ u.host[f].rejCount = 1 ∧
        u.host[f].rejAddr = BitVec.ofNat 32 (barOff f y.off) ∧ u.host[f].rejCause = (if decodeOff f (barOff f y.off) = none then 3 else 2) ∧ (u.stat x).bits.getLsbD 0 = true) ∧
    (∀ v, ∃ u : State, exec (.glbLockWrite v) s = .next u.settle ∧ u.reg .glb 0x008 = s.reg .glb 0x008 ||| (v &&& 0x3FF) ∧
      (∀ c p, regKey c p ≠ regKey .glb 0x008 → u.reg c p = s.reg c p)) ∧
    (∀ f off be b o, decodeOff f (barOff f off) = some (b, o) → lowHalf b o = true →
      (∃ u : State, exec (.lowHalfRead f ⟨off, be, []⟩) s = .next u ∧ mapGet none u.holdRd (regKey b (o + 4)) = some (s.tick.readFn f b (o + 4)) ∧
        u.answer = ((List.range 4).filter fun i => be.getLsbD i).map fun i => (toBytesLE 4 (s.tick.readFn f b o).toNat).getD i 0) ∧
      (decodeOff f (barOff f (off + 4)) = some (b, o + 4) → lowHalf b (o + 4) = false → ∃ u : State, exec (.lowHalfRead f ⟨off, 0xF, [0xF]⟩) s = .next u ∧
        u.answer = toBytesLE 4 (s.tick.readFn f b o).toNat ++ toBytesLE 4 (s.tick.readFn f b (o + 4)).toNat)) ∧
    (∀ f off b o h, decodeOff f (barOff f off) = some (b, o) → lowHalf b o = false → mapGet none s.holdRd (regKey b o) = some h → ∃ u : State, exec (.lowHalfRead f ⟨off, 0xF, []⟩) s = .next u ∧
      u.answer = toBytesLE 4 h.toNat ∧ mapGet none u.holdRd (regKey b o) = none) ∧
    (∀ off v b o lo, decodeOff pf0 (barOff pf0 off) = some (b, o) → splitAt b o = some (lo, false) → (∃ r, regAt b o = some r ∧ s.locked b r = false ∧ r.kind = .rw ∧ r.cls ≠ .q) →
      ∃ u : State, exec (.splitValueWrite pf0 off v) s = .next u.settle ∧ mapGet none u.holdWr (regKey b lo) = some v ∧ u.regs = s.regs ∧
        u.readReg b o = v) ∧
    (∀ off v b o lo w, decodeOff pf0 (barOff pf0 off) = some (b, o) → splitAt b o = some (lo, true) → (∃ r, regAt b o = some r ∧ s.locked b r = false ∧ r.kind = .rw ∧ r.cls ≠ .q) → ¬ (b = .mgt ∧ lo = 0x018) →
      mapGet none s.holdWr (regKey b lo) = some w → ∃ u : State, exec (.splitValueWrite pf0 off v) s = .next u.settle ∧ u.reg b lo = w ∧ u.reg b (lo + 4) = v)

/-- R37, R437, R495, R498, Table 20.10: each source of a warm reset, from READY, halts the Churn, makes every Stall DRY, loses what memory holds, clears every status register but PWR_STATUS and raises
its SEQ, keeps the PWR registers and the images, and begins phase 2 of the start-up sequence with its cause in MGT_BOOT. -/
def Obligations.WarmResetResults : Prop :=
  ∀ (s : State), s.mgt.stage = 9 → s.power.commit = none → s.mgt.linkUp = true → (s.reg .mgt 0x008).getLsbD 1 = true →
    ∀ x ∈ ([(.glbResetWarm, 5), (.hostPerstNAssert, 2), (.hotReset, 3), (.dlDown, 3), (.flrPf0, 4), (.warmReset, 7)] : List (Instr × Nat)),
      ∃ u : State, exec x.1 s = .next u ∧ u.mgt.stage = 2 ∧ u.mgt.cause = x.2 ∧ u.mgt.linkUp = false ∧ u.churn.running = false ∧ (∀ n : StallId, u.stallState n = .dry) ∧
        u.mem.cells = [] ∧ u.mem.images = s.mem.images ∧ (∀ o < 0x10000, u.reg .pwr o = s.reg .pwr o) ∧ u.stat .pwr = s.stat .pwr ∧
        (∀ r, r ≠ .pwr → (u.stat r).bits = 0 ∧ (u.stat r).seq = (s.stat r).seq + 1) ∧ u.sec.kslots = 0

/-- R495, R497, Table 16.2: a Stall reset by GLB_RESET, by a function-level reset or by clearing VF Enable disables every ring of the Stall's VF, which posts nothing from then on; a function-level reset
also clears Bus Master Enable and masks the vectors (log 57). HOST_PERST_N deasserted lets the link train once identity is known.
R497: a Stall reset with no slot open ends at once: the requests are gone, the rings are at reset, and RESET_DONE is set in VF_STATUS. -/
def Obligations.StallResetResults : Prop :=
 (∀ (s : State), s.up = true → s.mgt.linkUp = true →
     (∀ k : BitVec 16, ∃ u : State, exec (.glbResetStall k) s = .next u.settle ∧ ∀ n : StallId, k.getLsbD n.val = true → (s.serving[n]).resetting = false → ∀ r : RingId,
       (u.ring (vfOf n) r).en = false ∧ (u.ring (vfOf n) r).running = []) ∧
     (∀ n, (s.serving[n]).resetting = false → ∃ u : State, exec (.flrVf n) s = .next u.settle ∧ (∀ r : RingId, (u.ring (vfOf n) r).en = false) ∧ u.host[vfOf n].bme = false ∧ u.host[vfOf n].masked = BitVec.allOnes 32) ∧
     (∃ u : State, exec .vfEnableClear s = .next u.settle ∧ ∀ n : StallId, (s.serving[n]).resetting = false → (∀ r : RingId, (u.ring (vfOf n) r).en = false) ∧ u.host[vfOf n].bme = false) ∧
     (s.sec.idOk = true → exec .hostPerstNDeassert s = .next (s.tick.modMgt fun m => { m with perst := false, linkUp := true }))) ∧
 (∀ (s : State) (n : StallId), (s.serving[n]).resetting = false → (s.serving[n]).requests = [] → (s.serving[n]).tblCmds = [] → (s.serving[n]).retires = [] → s.slotsOf n = [] →
     let u := s.resetStall n
     (u.serving[n]).resetting = false ∧ (u.serving[n]).batches = [] ∧ (u.stat (.vf n)).bits.getLsbD 3 = true ∧
       ∀ r : RingId, u.ring (vfOf n) r = { Ring.reset with nextOrd := (s.ring (vfOf n) r).nextOrd })

/-- Tables 20.11, 20.12, R498–R501, R463, R464: a phase of the start-up sequence that completes leads to the next; phase 3 leaves the identity known, phase 7 the key slots 16 and 17 loaded, and READY comes
once phases 7 and 8 are complete with the bank at V_RES. A trial boot that is not READY in time falls back to the other slot. -/
def Obligations.StartupPhaseResults : Prop :=
  ∀ (s : State) (o : PhaseOutcome), s.power.commit = none → o.pass = true →
    (s.mgt.stage = 1 → o.phase = 1 → s.power.vstby = true → exec (.startupPhaseDone o) s = .next (s.tick.modMgt fun m => { m with stage := 2 })) ∧
    (s.mgt.stage = 2 → o.phase = 2 → s.mgt.warm = false → s.power.steps = 8 → exec (.startupPhaseDone o) s = .next (s.tick.modMgt fun m => { m with stage := 3 })) ∧
    (s.mgt.stage = 3 → o.phase = 3 → ∃ u : State, exec (.startupPhaseDone o) s = .next u ∧ u.mgt.stage = 4 ∧ u.sec.idOk = true) ∧
    (s.mgt.stage = 4 → o.phase = 4 → s.sec.running ≠ [] → exec (.startupPhaseDone o) s = .next (s.tick.modMgt fun m => { m with stage := 5 })) ∧
    (s.mgt.stage = 5 → o.phase = 5 → ∃ u : State, exec (.startupPhaseDone o) s = .next u ∧ u.mgt.stage = 6) ∧
    (s.mgt.stage = 6 → o.phase = 6 → ∃ u : State, exec (.startupPhaseDone o) s = .next u ∧ u.mgt.stage = 7 ∧ ∀ t : TileId, t ∈ o.failed → u.tiles[t].quar = .quar 5) ∧
    (s.mgt.stage = 7 → o.phase = 7 → s.mgt.done8 = false → ∃ u : State, exec (.startupPhaseDone o) s = .next u ∧ u.mgt.stage = 8 ∧ u.sec.kslots = 0x30000) ∧
    (s.mgt.stage = 8 → o.phase = 8 → s.mgt.done7 = true → s.mgt.done8 = false → s.power.vres ≤ s.power.bankV →
      ∃ u : State, exec (.startupPhaseDone o) s = .next u ∧ u.mgt.stage = 9 ∧ (u.stat .mgt).bits.getLsbD 0 = true) ∧
    (s.sec.trial = true → 1 ≤ s.mgt.stage → s.mgt.stage ≤ 8 → ∃ u : State, exec .trialBootTimeout s = .next u ∧ u.mgt.stage = 2 ∧ u.sec.slot = !s.sec.slot ∧ u.sec.fallback = true ∧
      u.sec.trial = false ∧ (u.stat .sec).bits.getLsbD 1 = true)

/-- R57–R61, R519: FRESHEN takes a DRY Stall through FRESHENING to the load of its image, whose HBM-resident pages wait to be read from flash, and in any other state ends with NO_STALL; the load ends
once they are read, fails with POISON, or is aborted; the clean-up of a
failed one ends in DRY with the status of what failed. -/
def Obligations.FreshenResults : Prop :=
  ∀ (n : StallId) (s : State), s.up = true →
    (∀ i, s.mgt.linkUp = true → s.stallState n = .dry → (s.tick.setStall n .freshening .loading).resourcesOk n = true → s.imageOf n = some i → i.good = true →
      ∃ u : State, exec (.freshen n) s = .next u ∧ u.stallState n = .freshening ∧ (u.stalls[n]).step = .loading ∧ u.sec.kslots.getLsbD n.val = true ∧ (u.stat (.vf n)).bits.getLsbD 1 = true ∧
        ∀ k ∈ i.loads, k ∈ (u.mem.fns[vfOf n]).rdQ) ∧
    (s.mgt.linkUp = true → s.stallState n ≠ .dry → ∃ u : State, exec (.freshen n) s = .next u ∧ u.stallState n = s.stallState n ∧ (u.stalls[n]).last = .noStall ∧
      (u.stat (.stl n)).bits.getLsbD 0 = true) ∧
    (∀ i, (s.stalls[n]).step = .loading → (s.mem.fns[vfOf n]).rdQ = [] → s.imageOf n = some i → ∃ u : State, exec (.imageLoadDone n false) s = .next u ∧ (u.stalls[n]).step = .loaded ∧
      u.stallState n = s.stallState n ∧ (u.serving[n]).saves = i.saves ∧ (u.mem.fns[vfOf n]).secs = i.secs) ∧
    ((s.mem.fns[vfOf n]).rdQ ≠ [] → exec (.imageLoadDone n false) s = .next s.tick) ∧
    ((s.stalls[n]).step = .loading → ∃ u : State, exec (.imageLoadDone n true) s = .next u ∧ (u.stalls[n]).step = .cleanup .poison ∧ u.sec.kslots.getLsbD n.val = false ∧
      (u.stat .ftl).bits.getLsbD 0 = true) ∧
    (s.mgt.linkUp = true → s.stallState n = .freshening → ((s.stalls[n]).step = .loading ∨ (s.stalls[n]).step = .loaded) → ∃ u : State, exec (.abort n) s = .next u ∧
      (u.stalls[n]).step = .cleanup .cancelled ∧ u.stallState n = .freshening ∧ u.sec.kslots.getLsbD n.val = false) ∧
    (∀ st, (s.stalls[n]).step = .cleanup st → ∃ u : State, exec (.freshenCleanupDone n) s = .next u.settle ∧ u.stallState n = .dry ∧ (u.stalls[n]).last = st ∧
      (u.stat (.stl n)).bits.getLsbD 0 = true ∧ (u.mem.fns[vfOf n]).allocs = [])

/-- R58, R62, R319, R343, R466, R468: DRY_DRAIN lets requests go on for up to the drain limit, DRY_CUT cancels them at once; then the tile stores are saved, what is dirty is written back to flash, the image is
committed, the key is erased and the Stall is scrubbed: it is DRY with nothing allocated. -/
def Obligations.DryingResults : Prop :=
  ∀ (n : StallId) (s : State), s.up = true →
    (s.mgt.linkUp = true → s.stallState n = .fresh → ∃ u : State, exec (.dryDrain n) s = .next u.settle ∧ u.stallState n = .drying ∧
      (u.stalls[n]).step = .draining (max 1 ((s.reg (.stl n) 0x18).toNat % 256))) ∧
    (s.mgt.linkUp = true → s.stallState n = .fresh → ∃ u : State, exec (.dryCut n) s = .next ((((u.dropCancelled n).cancelSettle n).batchSweep n).freeUnloaded n).settle ∧ u.stallState n = .drying ∧
      (u.stalls[n]).step = .draining 0 ∧ ∀ q ∈ (u.serving[n]).requests, q.cancelled = true) ∧
    (s.mgt.linkUp = true → s.stallState n ≠ .fresh → ∀ x ∈ ([.dryDrain n, .dryCut n] : List Instr), ∃ u : State, exec x s = .next u.settle ∧ u.stallState n = s.stallState n ∧
      (u.stalls[n]).last = .noStall) ∧
    ((s.stalls[n]).step = .draining 0 → ∃ u : State, exec (.drainLimitReached n) s = .next ((((u.dropCancelled n).cancelSettle n).batchSweep n).freeUnloaded n).settle ∧
      ∀ q ∈ (u.serving[n]).requests, q.cancelled = true) ∧
    ((s.stalls[n]).step = .saving → (∀ r : RowId, (s.churn.rows[r]).switching = false) → ∃ u : State, exec (.dryTileSaveDone n) s = .next u ∧ (u.stalls[n]).step = .writingBack ∧
      (∀ r : RowId, (u.churn.rows[r]).held ≠ some n) ∧
      ∀ t : TileId, (s.churn.rows[tileRow t]).held = some n → s.tiles[t].quar = .none → mapGet ([], []) (u.serving[n]).saves t.val = (s.tiles[t].store, s.tiles[t].marks)) ∧
    ((s.stalls[n]).step = .writingBack → (s.mem.fns[vfOf n]).copyQ = [] → (s.mem.fns[vfOf n]).wbuf = [] → ∃ u : State, exec (.dryWritebackDone n) s = .next u ∧ (u.stalls[n]).step = .scrubbing ∧
      u.sec.kslots.getLsbD n.val = false ∧ ∀ i, u.imageOf n = some i → i.cells = (s.mem.fns[vfOf n]).back ∧ i.secs = (s.mem.fns[vfOf n]).secs ∧ i.saves = (s.serving[n]).saves ∧ i ∈ u.mem.onFlash) ∧
    ((s.mem.fns[vfOf n]).copyQ ≠ [] ∨ (s.mem.fns[vfOf n]).wbuf ≠ [] → exec (.dryWritebackDone n) s = .next s.tick) ∧
    ((s.stalls[n]).step = .scrubbing → ∃ u : State, exec (.dryScrubDone n) s = .next u.settle ∧ u.stallState n = .dry ∧ (u.stalls[n]).last = .ok ∧ (u.mem.fns[vfOf n]).allocs = [] ∧
      (∀ a < 2 ^ 47, u.byteAt (vfOf n) a = 0))

/-- R69–R71, R42, R317, R484: RUN written 1 while halted begins Churn 1 at once, and while running withdraws a halt; RUN written 0 lets the next boundary halt. A boundary begins the next Churn, or halts with the
HALTED event; the values that waited are in force and no slot is open late. -/
def Obligations.ChurnResults : Prop :=
  ∀ (s : State), s.up = true →
    (s.mgt.linkUp = true → s.churn.running = false → ∃ u : State, exec .chnRunSet s = .next u.settle ∧ u.churn.running = true ∧ u.churn.num = 1 ∧ u.churn.opened = [] ∧ u.churn.cturn = 0 ∧ u.pendT = []) ∧
    (s.mgt.linkUp = true → s.churn.running = true → exec .chnRunSet s = .next (s.tick.modChurn fun c => { c with halting := false }).settle) ∧
    (s.mgt.linkUp = true → s.churn.running = true → exec .chnRunClear s = .next (s.tick.modChurn fun c => { c with halting := true })) ∧
    (∀ x, s.churn.running = true → s.churn.halting = true → ∃ u : State, exec (.churnBoundary x) s = .next u.settle ∧ u.churn.running = false ∧ u.churn.num = s.churn.num ∧ u.pendT = [] ∧
      (u.stat .chn).bits.getLsbD 2 = true ∧ s.boundaryDue ≤ (u.now : Int)) ∧
    (∀ x, s.churn.running = true → s.churn.halting = false → ∃ u : State, exec (.churnBoundary x) s = .next u.settle ∧ u.churn.running = true ∧ u.churn.num = s.churn.num + 1 ∧ u.churn.opened = [] ∧
      u.churn.cturn = 0 ∧ u.pendT = [] ∧ s.boundaryDue ≤ (u.now : Int))

/-- R74–R77, R80, R81, R518: a slot opens on all its rows when they are ready, and waits otherwise; at its end no row is in it; a switch hands its row over; a turn of the wheel is counted for its resource; a Commons turn
passes to its owner. -/
def Obligations.SlotTurnResults : Prop :=
  ∀ (s : State), s.up = true →
    (∀ e : SlotId, s.churn.running = true → s.entryLive e.val = true → s.churn.opened.contains e.val = false → s.churn.late.contains e.val = false → s.now + 1 < s.slotEnd e →
      (∀ x ∈ s.openList, max (s.now + 1) (s.slotStart e) < s.slotEnd x) →
      (s.slotReady e = true → ∃ u : State, exec (.slotOpen e) s = .next u.settle ∧ (∀ r ∈ (s.schedEntry e.val).rowList, (u.churn.rows[r]).slot = some e) ∧ u.churn.opened = s.churn.opened ++ [e.val] ∧
        s.slotStart e ≤ u.now) ∧
      (s.slotReady e = false → exec (.slotOpen e) s = .next ((s.tick.until (s.slotStart e)).modChurn fun c => { c with late := c.late ++ [e.val] }).settle)) ∧
    (∀ (e : SlotId) (r : RowId), (s.churn.rows[r]).slot = some e → ∃ u : State, exec (.slotEnd e) s = .next u.settle ∧ (∀ q : RowId, (u.churn.rows[q]).slot ≠ some e) ∧ e.val ∈ u.churn.ended ∧
      s.slotEnd e ≤ u.now) ∧
    (∀ r : RowId, (s.churn.rows[r]).switching = true → s.rowIdle r = true → s.churn.late = [] → ((s.churn.rows[r]).queued = none ∨ (s.churn.rows[r]).queued = some none) →
      ∃ u : State, exec (.switchComplete r) s = .next u.settle ∧ (u.churn.rows[r]).held = (s.churn.rows[r]).incoming ∧ (u.churn.rows[r]).switching = false) ∧
    (∀ r : WheelResource, s.wheelOwner (mapGet 0 s.churn.turns (turnKey r)) = .noOne →
      exec (.wheelTurn r) s = .next (s.tick.modChurn fun c => { c with turns := mapSet 0 c.turns (turnKey r) (mapGet 0 c.turns (turnKey r) + 1) }).settle) ∧
    (∀ (r : WheelResource) (n : StallId), s.wheelOwner (mapGet 0 s.churn.turns (turnKey r)) = .stall n → s.works n = false → ((∃ c, r = .flashChannel c) → s.stallState n = .dry) →
      ∃ u : State, exec (.wheelTurn r) s = .next (u.count (some n) 0x0B1 1).settle ∧ mapGet 0 u.churn.turns (turnKey r) = mapGet 0 s.churn.turns (turnKey r) + 1 ∧ u.serving = s.serving) ∧
    (∀ (d : Die) (n : StallId) (k : Packet) (rest : List Packet), s.wheelOwner (mapGet 0 s.churn.turns (turnKey (.slice d))) = .stall n → s.works n = true →
      mapGet [] s.fabric.epOut (epKey d n.val) = k :: rest → ∃ u : State, exec (.wheelTurn (.slice d)) s = .next (u.count (some n) 0x0B0 1).settle ∧
        mapGet [] u.fabric.epOut (epKey d n.val) = rest ∧ mapGet [] u.fabric.inject d.val = mapGet [] s.fabric.inject d.val ++ [k]) ∧
    (s.halted = false → s.churn.boundaryAt + s.churn.cturn * 256 < s.boundaryDue → ∃ u : State, exec .commonsTurn s = .next u.settle ∧ u.churn.cturn = s.churn.cturn + 1 ∧
      s.churn.boundaryAt + s.churn.cturn * 256 ≤ u.now ∧ u.churn.commons = (match s.commonsOwner (s.churn.cturn % 32) with | .stall n => some (vfOf n) | .provider => some pf0 | .noOne => none))

/-! ### Commands of the rings: memory -/

/-- R63, R295, R296, R405: the rows that are a descriptor of a ring. A ring that may fetch passes it; a DRY or DRYING Stall's completes with NO_STALL; a reserved byte, a command of ring 0 on another ring or a
command of a Stall on PF0 completes with BAD_DESC (a template on another ring with BAD_TEXT). A ring that may not fetch leaves all as it was. -/
def Obligations.RingCommandChecks : Prop :=
  ∀ (f : Fn) (r : RingId) (d : Desc) (s : State),
    ∀ x ∈ ([(.dobLoad f r d, 0x08), (.dobUnload f r d, 0x09), (.request f r d, 0x01), (.cancel f r d, 0x02), (.dispatch f r d, 0x03), (.progBind f r d, 0x10), (.progRetire f r d, 0x11),
        (.mdlReg f r d, 0x12), (.mdlRetire f r d, 0x13), (.adpLoad f r d, 0x14), (.cltSet f r d, 0x15), (.pfxDrop f r d, 0x16), (.srvCfg f r d, 0x17), (.idxRegister f r d, 0x20),
        (.idxUpdate f r d, 0x21), (.idxSweep f r d, 0x22), (.idxRetire f r d, 0x23), (.tblRegister f r d, 0x28), (.tblReplace f r d, 0x29), (.tblRetire f r d, 0x2A),
        (.txtVocabReg f r d, 0x30), (.txtGrammarReg f r d, 0x31), (.txtTemplateReg f r d, 0x32), (.txtTokenise f r d, 0x33), (.txtRetire f r d, 0x34), (.memAlloc f r d, 0x40),
        (.memFree f r d, 0x41), (.memSync f r d, 0x42), (.memMove f r d, 0x43), (.memHostIn f r d, 0x44), (.memHostOut f r d, 0x45), (.memExport f r d, 0x46), (.memUnexport f r d, 0x47),
        (.memQuery f r d, 0x48)] : List (Instr × Nat)),
      let c := s.nextCmd x.2 f r d
      (s.mayFetch f r = false → s.up = true → exec x.1 s = .next s.tick.settle) ∧
      (∀ n, s.takes f r d → stallOf f = some n → s.stallState n = .dry ∨ s.stallState n = .drying → ∃ u : State, exec x.1 s = .next u.settle ∧ s.posted u c .noStall 0 0) ∧
      (s.takes f r d → (∀ n, stallOf f = some n → s.stallState n = .fresh) → x.2 ≠ 0x32 ∨ r = 0 ∨ f = pf0 →
        ((∃ l, bodyFields x.2 = some l ∧ c.reservedZero l = false) ∨ (adminOp x.2 = true ∧ r ≠ 0) ∨ (memOp x.2 = false ∧ f = pf0)) →
        ∃ u : State, exec x.1 s = .next u.settle ∧ s.posted u c .badDesc 0 0) ∧
      (s.takes f r d → (∀ n, stallOf f = some n → s.stallState n = .fresh) → x.2 = 0x32 → r ≠ 0 → f ≠ pf0 → ∃ u : State, exec x.1 s = .next u.settle ∧ s.posted u c .badText 0 0) ∧
      (s.passes x.2 f r d → (s.fetched f r).cmdReady c = false → ∃ u : State, exec x.1 s = .next u.settle ∧ u.sent = s.sent ∧ c ∈ (u.ring f r).gated)

/-- R336, R337, R344, R351: MEM_ALLOC makes an allocation at a free multiple of 2 MiB, or answers BAD_DESC or QUOTA; an HBM one completes at ALLOC_ZERO_FILL_DONE. MEM_FREE removes the allocation and its
bytes. MEM_SYNC has the dirty pages of its range copied into the write buffer as it takes them, and MEM_MOVE begins a change: both complete later.
R338, R353, R335: MEM_HOST_IN and MEM_HOST_OUT check both ranges before any byte moves, and then wait for their turns; MEM_EXPORT takes a free number below 256, MEM_UNEXPORT gives it back; MEM_QUERY
writes the record of Table 14.4, once its page can be written. -/
def Obligations.MemoryCommandResults : Prop :=
 (∀ (f : Fn) (r : RingId) (d : Desc) (s : State),
     let z := s.fetched f r
     (let c := s.nextCmd 0x40 f r d
      let a := z.newAlloc c
      s.accepts 0x40 f r d →
       (c.allocBad = true → ∃ u : State, exec (.memAlloc f r d) s = .next u.settle ∧ s.posted u c .badDesc 0 0) ∧
       (∀ base, c.allocBad = false → z.allocFits f a = true → z.chooseBase f a.commons a.units = some base →
         ∃ u : State, exec (.memAlloc f r d) s = .next u.settle ∧ (u.mem.fns[f]).allocs = (s.mem.fns[f]).allocs ++ [{ a with base }] ∧ base % 2 ^ 21 = 0 ∧
           (∀ x ∈ (s.mem.fns[f]).allocs, x.commons = a.commons → x.base % 2 ^ 21 = 0 → x.top ≤ base ∨ base + a.units * 2 ^ 21 ≤ x.base) ∧
           (a.tier = .hbm → u.sent = s.sent) ∧ (a.tier ≠ .hbm → s.posted u c .ok (base % 2 ^ 32) (base / 2 ^ 32 % 65536))) ∧
       (c.allocBad = false → z.allocFits f a = false ∨ z.chooseBase f a.commons a.units = none →
         ∃ u : State, exec (.memAlloc f r d) s = .next u.settle ∧ s.posted u c .quota 0 0 ∧ (u.mem.fns[f]).allocs = (s.mem.fns[f]).allocs ∧
           ∀ n, stallOf f = some n → (u.mem.fns[f]).qfail = (s.mem.fns[f]).qfail + 1 ∧ (u.stat .mem).bits.getLsbD 0 = true)) ∧
     (let c := s.nextCmd 0x41 f r d
      s.accepts 0x41 f r d →
       ((s.mem.fns[f]).named (c.u 0x10 8) = none → ∃ u : State, exec (.memFree f r d) s = .next u.settle ∧ s.posted u c .badDesc 0 0 ∧ u.mem = s.mem) ∧
       (∀ a, (s.mem.fns[f]).named (c.u 0x10 8) = some a → a.move = none → (s.mem.fns[f]).syncs = [] → a.top ≤ commonsBase → (∀ x ∈ (s.mem.fns[f]).allocs, x.freeing = none ∧ (x.base = a.base → x = a)) →
         ∃ u : State, exec (.memFree f r d) s = .next u.settle ∧ s.posted u c .ok 0 0 ∧ (u.mem.fns[f]).allocs = (s.mem.fns[f]).allocs.filter (fun x => x.base ≠ a.base) ∧
           ∀ g x, x < 2 ^ 48 → u.byteAt g x = if g = f ∧ a.base ≤ x ∧ x < a.top then 0 else s.byteAt g x)) ∧
     (let c := s.nextCmd 0x42 f r d
      let lo := c.u 0x10 8
      let hi := lo + c.u 0x18 8
      s.accepts 0x42 f r d → (addrOk lo && z.inAllocs f (fun _ => true) 4097 lo (c.u 0x18 8) && decide (hi ≤ commonsBase)) = true →
       ∃ u : State, exec (.memSync f r d) s = .next u.settle ∧ u.sent = s.sent ∧ u.mem.cells = s.mem.cells ∧ ∃ y ∈ (u.mem.fns[f]).syncs, y.cmd = c ∧ y.lo = lo ∧ y.hi = hi ∧
         (∀ p ∈ y.left, p ∈ (s.mem.fns[f]).dirtyPages lo hi) ∧ ∀ p ∈ (s.mem.fns[f]).dirtyPages lo hi, p ∈ y.left ∨ (u.mem.fns[f]).pageDirty p = false) ∧
     (let c := s.nextCmd 0x43 f r d
      let k := c.u 0x18 4
      s.accepts 0x43 f r d → ∀ a, (s.mem.fns[f]).named (c.u 0x10 8) = some a →
       let good := k % 32 < 2 ∧ k < 256 ∧ (k % 4 = 1 ∨ k / 32 = 0 ∨ 4 ≤ k / 32)
       (¬ good ∨ a.tier = .pool ∨ a.commons = true → ∃ u : State, exec (.memMove f r d) s = .next u.settle ∧ s.posted u c .badDesc 0 0) ∧
       (good → a.tier ≠ .pool → a.commons = false →
         (a.move ≠ none → ∃ u : State, exec (.memMove f r d) s = .next u.settle ∧ s.posted u c .busy 0 0) ∧
         (a.move = none → z.beginMove f a (tierOf (k % 4)) (k / 32 % 8) (some c) = none → ∃ u : State, exec (.memMove f r d) s = .next u.settle ∧ s.posted u c .quota 0 0) ∧
         (a.move = none → z.beginMove f a (tierOf (k % 4)) (k / 32 % 8) (some c) ≠ none → ∃ u : State, exec (.memMove f r d) s = .next u.settle ∧ u.sent = s.sent ∧
           ∀ x ∈ (u.mem.fns[f]).allocs, x.base = a.base → ∃ m, x.move = some m ∧ m.cmd = some c ∧ m.dest = tierOf (k % 4) ∧ m.place = k / 32 % 8)))) ∧
 (∀ (f : Fn) (r : RingId) (d : Desc) (s : State),
     let z := s.fetched f r
     (∀ x ∈ ([(.memHostIn f r d, 0x44, true), (.memHostOut f r d, 0x45, false)] : List (Instr × Nat × Bool)),
       let c := s.nextCmd x.2.1 f r d
       let n := c.u 0x20 8
       let ok := addrOk (c.u 0x18 8) && z.inOne f (c.u 0x18 8) n && decide (c.u 0x10 8 + n ≤ 2 ^ 64) && (!x.2.2 || z.writable f (c.u 0x18 8) n)
       s.accepts x.2.1 f r d →
         (ok = false → ∃ u : State, exec x.1 s = .next u.settle ∧ s.posted u c .badDesc 0 0 ∧ u.mem = s.mem) ∧
         (ok = true → n = 0 → ∃ u : State, exec x.1 s = .next u.settle ∧ s.posted u c .ok 0 0 ∧ u.mem = s.mem) ∧
         (ok = true → n ≠ 0 → ∃ u : State, exec x.1 s = .next u.settle ∧ u.sent = s.sent ∧ u.mem = s.mem ∧
           u.host[f].copies = s.host[f].copies ++ [{ cmd := c, into := x.2.2, host := c.u 0x10 8, dev := c.u 0x18 8, bytes := n, asked := 0, done := 0, buf := [] }])) ∧
     (let c := s.nextCmd 0x46 f r d
      s.accepts 0x46 f r d → ∀ a, (s.mem.fns[f]).named (c.u 0x10 8) = some a →
       (a.tier ≠ .hbm ∨ f = pf0 → ∃ u : State, exec (.memExport f r d) s = .next u.settle ∧ s.posted u c .badDesc 0 0) ∧
       (a.tier = .hbm → f ≠ pf0 → c.u 0x18 2 < 256 → (∃ i < 256, ∀ x ∈ (s.mem.fns[f]).exports, x.num ≠ i) →
         ∃ (u : State) (i : Nat), exec (.memExport f r d) s = .next u.settle ∧ i < 256 ∧ (∀ x ∈ (s.mem.fns[f]).exports, x.num ≠ i) ∧ s.posted u c .ok i 0 ∧
           (u.mem.fns[f]).exports = (s.mem.fns[f]).exports ++ [{ num := i, base := a.base, peer := BitVec.ofNat 16 (c.u 0x18 2) }])) ∧
     (let c := s.nextCmd 0x47 f r d
      s.accepts 0x47 f r d →
       ((∀ x ∈ (s.mem.fns[f]).exports, x.num ≠ c.u 0x10 1) → ∃ u : State, exec (.memUnexport f r d) s = .next u.settle ∧ s.posted u c .badDesc 0 0) ∧
       ((∃ x ∈ (s.mem.fns[f]).exports, x.num = c.u 0x10 1) → ∃ u : State, exec (.memUnexport f r d) s = .next u.settle ∧ s.posted u c .ok 0 0 ∧
         (u.mem.fns[f]).exports = (s.mem.fns[f]).exports.filter fun x => x.num ≠ c.u 0x10 1)) ∧
     (let c := s.nextCmd 0x48 f r d
      s.accepts 0x48 f r d → addrOk (c.u 0x10 8) = true → c.u 0x10 8 % 64 = 0 → z.writable f (c.u 0x10 8) 64 = true →
       (s.mem.fns[f]).queries = [] →
       (z.ready f [] [(c.u 0x10 8, 64)] = true → ∃ u : State, exec (.memQuery f r d) s = .next u.settle ∧ s.posted u c .ok 0 0 ∧
         u.mem.cells = (z.writeMem f (c.u 0x10 8) (z.queryBytes f)).mem.cells) ∧
       (z.ready f [] [(c.u 0x10 8, 64)] = false → ∃ u : State, exec (.memQuery f r d) s = .next u.settle ∧ u.sent = s.sent ∧ (u.mem.fns[f]).queries = [c])))

/-- R336, R339, R340, R344, R351: how memory goes on by itself: the end of a zero-fill completes its MEM_ALLOC; a commit record in the write buffer completes its SYNC, once every page of its
range is copied there, and makes what was written back of its sectors the image's; the last page of a tier change puts the allocation in its new tier; a staging page whose flash reads have ended takes
the writes that wait for it. -/
def Obligations.MemoryEventResults : Prop :=
  ∀ (f : Fn) (a : Nat) (s : State), s.up = true →
    (∀ x c, (s.mem.fns[f]).allocs.find? (fun y => y.base = a) = some x → x.zeroing = some c → c.f = f → s.awaits c →
      ∃ u : State, exec (.allocZeroFillDone f a) s = .next u.settle ∧ s.posted u c .ok (a % 2 ^ 32) (a / 2 ^ 32 % 65536) ∧
        (u.mem.fns[f]).allocs = (s.mem.fns[f]).allocs.map fun y => if y.base = a then { y with zeroing := none } else y) ∧
    (∀ n y, f = vfOf n → (s.mem.fns[f]).syncs.find? (fun q => q.lo = a) = some y → y.cmd.f = f → s.awaits y.cmd →
      (y.left ≠ [] ∨ s.tick.copyRoom f 0 = false ∨ s.tick.poolQuiet f y.lo y.hi = false → exec (.memSyncDone f a) s = .next s.tick.settle) ∧
      (y.left = [] → s.tick.copyRoom f 0 = true → s.tick.poolQuiet f y.lo y.hi = true → (s.mem.fns[f]).gone = [] → mapCanon 0 (s.mem.fns[f]).back = true →
      ∃ u : State, exec (.memSyncDone f a) s = .next u.settle ∧ s.posted u y.cmd .ok 0 0 ∧
        ∀ i, s.imageOf n = some i → ∃ j, u.imageOf n = some j ∧ j.allocs = committedAllocs (s.mem.fns[f]).allocs ∧
          ∀ x, mapGet 0 j.cells x = if y.lo / 4096 ≤ x / 4096 ∧ x / 4096 * 4096 < y.hi then mapGet 0 (s.mem.fns[f]).back x else mapGet 0 i.cells x)) ∧
    (∀ y m c, (s.mem.fns[f]).allocs.find? (fun y => y.base = a) = some y → y.move = some m → y.pages ≤ m.done → m.cmd = some c → c.f = f → s.awaits c → s.tick.copyRoom f 0 = true →
      (∀ x ∈ (s.mem.fns[f]).allocs, x.freeing = none) →
      ∃ u : State, exec (.tierChangeDone f a) s = .next u.settle ∧ s.posted u c .ok 0 0 ∧
        ∀ x ∈ (u.mem.fns[f]).allocs, x.base = a → x.tier = m.dest ∧ x.groups = m.groups ∧ x.move = none ∧ (m.dest ≠ .hbm → x.dirty = [])) ∧
    (∀ p, let waits := (s.locsOf f (s.fillSecs f (a / 65536 + p))).any fun k => (s.mem.fns[f]).rdQ.contains k
      (waits = true → exec (.stagingPageFill f a p) s = .next s.tick.settle) ∧
      (waits = false → exec (.stagingPageFill f a p) s = .next (s.tick.modFnMem f fun m =>
        { m with staged := m.staged.map fun y => if y.base = a ∧ y.page = p then { y with filling := false } else y }).settle))

/-- R350, R352, R465: a provider command that finds another running answers BUSY; DEMOTE and IMG_CREATE, and IMG_DELETE of an image that no Stall names, begin; DEMOTE_ABORT stops a demotion with CANCELLED; the
ends report OK, and the image is made in a free slot, or is gone. -/
def Obligations.ProviderMemoryResults : Prop :=
  ∀ (s : State), s.up = true →
    (∀ v, s.mgt.linkUp = true → s.mem.prov ≠ none → ∀ x ∈ ([.demote v, .imgCreate, .imgDelete] : List Instr), exec x s = .next (s.tick.modMem fun m => { m with presStatus := .busy })) ∧
    (∀ v : BitVec 32, s.mgt.linkUp = true → s.mem.prov = none →
      let n : StallId := Fin.ofNat 16 (v.toNat / 2 ^ 8)
      let target := (s.reg .mem 0x00C).toNat
      ∃ u : State, exec (.demote v) s = .next u ∧ (∃ k l, u.mem.prov = some (.demote n target 0 k l)) ∧ (s.hbmUse n ≤ target → u.mem = { s.mem with provAt := s.tick.now, prov := some (.demote n target 0 0 []) })) ∧
    (∀ (v : BitVec 32) n target freed k l, s.mgt.linkUp = true → s.mem.prov = some (.demote n target freed k l) → n = Fin.ofNat 16 (v.toNat / 2 ^ 8) →
      ∃ u : State, exec (.demoteAbort v) s = .next u.settle ∧ u.mem.prov = none ∧ u.mem.presStatus = .cancelled ∧ u.mem.pfreed = BitVec.ofNat 32 freed ∧
        ∀ a ∈ (u.mem.fns[vfOf n]).allocs, ∀ m, a.move = some m → m.cmd ≠ none) ∧
    (∀ n target freed k l, s.mem.prov = some (.demote n target freed k l) → (∀ a ∈ (s.mem.fns[vfOf n]).allocs, ∀ m, a.move = some m → m.cmd ≠ none) → l = [] ∨ s.hbmUse n ≤ target →
      ∃ u : State, exec .demoteDone s = .next u ∧ u.mem.prov = none ∧ u.mem.presStatus = .ok ∧ u.mem.pfreed = BitVec.ofNat 32 freed ∧ u.mem.presSkipped = BitVec.ofNat 16 k ∧
        (u.stat .mem).bits.getLsbD 1 = true) ∧
    (s.mgt.linkUp = true → s.mem.prov = none → exec .imgCreate s = .next (s.tick.modMem fun m => { m with prov := some .imgCreate })) ∧
    (s.mgt.linkUp = true → s.mem.prov = none → (∀ n : StallId, s.stallState n ≠ .dry → s.imageNamed n ≠ s.pimg) →
      ((∃ i ∈ s.mem.images, (i.slot, i.gen) = s.pimg) → exec .imgDelete s = .next (s.tick.modMem fun m => { m with prov := some (.imgDelete s.pimg.1 s.pimg.2) })) ∧
      ((∀ i ∈ s.mem.images, (i.slot, i.gen) ≠ s.pimg) → exec .imgDelete s = .next (s.tick.modMem fun m => { m with presStatus := .keyFail }))) ∧
    (s.mem.prov = some .imgCreate → (∃ i < 65536, ∀ x ∈ s.mem.images, x.slot ≠ i) →
      ∃ (u : State) (i : Image), exec .providerImageCommandDone s = .next u ∧ u.mem.images = s.mem.images ++ [i] ∧ i.slot < 65536 ∧ (∀ x ∈ s.mem.images, x.slot ≠ i.slot) ∧ i.allocs = [] ∧ i.cells = [] ∧
        u.mem.prov = none ∧ u.mem.presStatus = .ok) ∧
    (∀ a b, s.mem.prov = some (.imgDelete a b) → ∃ u : State, exec .providerImageCommandDone s = .next u ∧ u.mem.prov = none ∧ u.mem.presStatus = .ok ∧
      u.mem.images = s.mem.images.filter fun i => !(decide (i.slot = a) && decide (i.gen = b)))

/-- R216, R261, R294, R362, R356–R359: RUN of the search, gather, text and flash units is bit 0 of their control registers; the data of a block read too often, or of the coldest block of a die pair worn
unevenly, is to move, and does in a leftover flash turn of the provider, which erases the block; a patrol read comes FTL_PATROL.DAYS after the last; a block that fails is retired and never used again. A block that is not in service is left alone, and so is one below FTL_RDCFG.LIMIT reads, or in a die pair whose erase counts lie within FTL_WLCFG.DELTA. -/
def Obligations.FlashResults : Prop :=
  ∀ (s : State), s.up = true →
    (∀ v, s.mgt.linkUp = true → exec (.srcCtrlRun v) s = .next (s.tick.setReg .src 0x000 (v &&& 1)).settle ∧ exec (.gthCtrlRun v) s = .next (s.tick.setReg .gth 0x000 (v &&& 1)).settle ∧
      exec (.txtCtrlRun v) s = .next (s.tick.setReg .txt 0x000 (v &&& 1)).settle ∧ exec (.ftlCtrlRun v) s = .next (s.tick.setReg .ftl 0x000 (v &&& 1)).settle) ∧
    (∀ b, s.blockOk b = false → ∀ x ∈ ([.readDisturbRefresh b, .flashPatrolRead b 1, .wearLevelMove b, .flashBlockFail b] : List Instr), exec x s = .next s.tick) ∧
    (∀ b, mapGet 0 s.mem.flash.reads b < (s.reg .ftl 0x010).toNat % 2 ^ 24 → exec (.readDisturbRefresh b) s = .next s.tick) ∧
    (∀ b, s.mem.flash.pairMax (b / 2 ^ 20) - s.mem.flash.pairMin (b / 2 ^ 20) ≤ (s.reg .ftl 0x00C).toNat % 65536 → exec (.wearLevelMove b) s = .next s.tick) ∧
    (∀ b, s.ftlRuns = false → exec (.flashPatrolRead b 1) s = .next s.tick) ∧
    (∀ b, s.blockOk b = true →
      (∀ x ∈ ([.readDisturbRefresh b, .wearLevelMove b] : List Instr),
        (x = .readDisturbRefresh b → (s.reg .ftl 0x010).toNat % 2 ^ 24 ≤ mapGet 0 s.mem.flash.reads b) →
        (x = .wearLevelMove b → (s.reg .ftl 0x00C).toNat % 65536 < s.mem.flash.pairMax (b / 2 ^ 20) - s.mem.flash.pairMin (b / 2 ^ 20) ∧
          mapGet 0 s.mem.flash.erases b = s.mem.flash.pairMin (b / 2 ^ 20)) →
        ∃ (u : State) (m : Bool), exec x s = .next u ∧ (b, m) ∈ u.mem.flash.moving ∧ (x = .readDisturbRefresh b → m = true) ∧ u.mem.cells = s.mem.cells ∧ u.mem.flash.erases = s.mem.flash.erases) ∧
      (s.ftlRuns = true → ∀ k, ∃ u : State, exec (.flashPatrolRead b k) s = .next u ∧ u.ras.ce = s.ras.ce + (if k = 0 then 0 else 1) ∧ mapGet 0 u.mem.flash.patrols b = u.now ∧
        mapGet 0 s.mem.flash.patrols b + s.patrolGap ≤ u.now ∧ (Config.patrolBits < k → (b, true) ∈ u.mem.flash.moving)) ∧
      (∀ (c : Fin 128) (m : Bool), s.mem.flash.moving = [(b, m)] → blockChannel b = c.val → s.flashDuty = none → (s.mem.fns[pf0]).rdQ = [] → (s.mem.fns[pf0]).wbuf = [] → s.ftlPrograms = true →
        s.mem.flash.freeBlock c.val ≠ none → s.wheelOwner (mapGet 0 s.churn.turns (turnKey (.flashChannel c))) = .provider → ∃ u : State, exec (.wheelTurn (.flashChannel c)) s = .next u.settle ∧
        mapGet 0 u.mem.flash.erases b = mapGet 0 s.mem.flash.erases b + 1 ∧ mapGet 0 u.mem.flash.reads b = 0 ∧ u.mem.flash.moving = [] ∧ u.mem.cells = s.mem.cells ∧
        (m = true → (u.stat .ftl).bits.getLsbD 1 = true)) ∧
      (∃ u : State, exec (.flashBlockFail b) s = .next u ∧ u.blockOk b = false ∧ u.mem.cells = s.mem.cells ∧
        (s.mem.flash.freeBlock (blockChannel b) ≠ none ∨ s.placesIn b = [] → mapGet 0 u.mem.flash.erases b = mapGet 0 s.mem.flash.erases b + 1) ∧
        (u.mem.flash.spare (b / 2 ^ 20) < spareFloor → u.mem.flash.short = u.mem.flash.shortfall ∧ (s.mem.flash.low.contains (b / 2 ^ 20) = false →
          (u.stat .ftl).bits.getLsbD 2 = true ∧ (u.stat .mem).bits.getLsbD 2 = true))))

/-! ### The host link, errors -/

/-- R401, R403, R404, R408, R409, R411–R413: doorbells set the ring's tail and head within its size; EN starts a drained ring whose addresses are aligned from zero, with a shadow record, and stops fetching; the
fetch of a descriptor starts it once what it names can be read, and a pair is cut at the ring's wrap; the bytes that the host answers reach the copy; vectors are signalled and unmasked; Bus Master Enable
releases what was held, where the function has a host turn, and a host turn of its own sends the oldest message held. -/
def Obligations.HostLinkResults : Prop :=
  ∀ (f : Fn) (r : RingId) (s : State), s.up = true → s.mgt.linkUp = true → s.barOpen f = true →
    (∀ v : BitVec 32, ((s.ring f r).en = false → exec (.sqTailDoorbell f r v) s = .next s.tick ∧ exec (.cqHeadDoorbell f r v) s = .next s.tick) ∧
      ((s.ring f r).en = true →
        (v.toNat < s.sqSize f r → exec (.sqTailDoorbell f r v) s = .next (s.tick.modRing f r fun g => { g with sqTail := v.toNat })) ∧
        (s.sqSize f r ≤ v.toNat → ∃ u : State, exec (.sqTailDoorbell f r v) s = .next u ∧ (u.ring f r).code = 1 ∧ (u.ring f r).sqTail = (s.ring f r).sqTail ∧ (u.ring f r).halted = (s.ring f r).halted) ∧
        (let k := s.cqSize f r
         let posted := ((s.ring f r).cqTail + k - (s.ring f r).cqHead) % k
         let freed := (v.toNat + k - (s.ring f r).cqHead) % k
         (v.toNat < k → freed ≤ posted → exec (.cqHeadDoorbell f r v) s = .next (s.tick.modRing f r fun g => { g with cqHead := v.toNat })) ∧
         (k ≤ v.toNat ∨ posted < freed → ∃ u : State, exec (.cqHeadDoorbell f r v) s = .next u ∧ (u.ring f r).code = 1 ∧ (u.ring f r).cqHead = (s.ring f r).cqHead)))) ∧
    (∀ v, (s.ring f r).en = false →
      ((s.ring f r).drained = true → s.ringOk f r = true → ∃ u : State, exec (.ringEnable f r v) s = .next u ∧ (u.ring f r).en = true ∧ (u.ring f r).drained = false ∧ (u.ring f r).sqHead = 0 ∧
        (u.ring f r).sqTail = 0 ∧ (u.ring f r).cqHead = 0 ∧ (u.ring f r).cqTail = 0 ∧ (u.ring f r).posted = 0 ∧ (s.hostOpen f = true → s.host[f].held = [] → ∃ l, u.sent = s.sent ++ HostMsg.shadow f r 0 0 0 :: l)) ∧
      ((s.ring f r).drained = false ∨ s.ringOk f r = false → ∃ u : State, exec (.ringEnable f r v) s = .next u ∧ (u.ring f r).en = false ∧ (u.ring f r).code = 3)) ∧
    (∀ v, ∃ u : State, exec (.ringDisable f r v) s = .next u ∧ (u.ring f r).en = false ∧ (u.ring f r).running = (s.ring f r).running ∧ (u.ring f r).sqHead = (s.ring f r).sqHead) ∧
    ((s.ring f r).en = false → (s.ring f r).running = [] → (s.ring f r).waiting = [] → exec (.ringDrained f r) s = .next (s.tick.modRing f r fun g => { g with drained := true })) ∧
    (∀ d, s.takes f r d →
      let c : Cmd := { f, r, ord := (s.ring f r).nextOrd, d }
      let z := s.fetched f r
      exec (.descriptorFetch f r [d]) s = .next (if z.cmdReady c = true then z.beginCmd c else (z.seekCmd c).modRing f r fun g => { g with gated := g.gated ++ [c] }).settle) ∧
    (∀ d d', (s.ring f r).sqHead + 1 = s.sqSize f r → exec (.descriptorFetch f r [d, d']) s = exec (.descriptorFetch f r [d]) s) ∧
    (∀ bytes c, s.host[f].copyIn? = some c → c.cmd.f = f → c.buf = [] → s.awaits c.cmd →
      let got := bytes.take (c.asked - c.done)
      got ≠ [] →
      (s.tick.ready f [] [(c.dev + c.done, got.length)] = false → ∃ u : State, exec (.hostReadData f bytes) s = .next u.settle ∧ u.mem = s.mem ∧ u.sent = s.sent ∧
        u.host[f].copies = s.host[f].copies.map fun x => if x.cmd = c.cmd then { x with buf := x.buf ++ got } else x) ∧
      (s.tick.ready f [] [(c.dev + c.done, got.length)] = true →
      (c.done + got.length = c.bytes → ∃ u : State, exec (.hostReadData f bytes) s = .next u.settle ∧ u.mem = (s.tick.writeMem f (c.dev + c.done) got).mem ∧
        s.posted u c.cmd .ok (c.bytes % 2 ^ 32) (c.bytes / 2 ^ 32)) ∧
      (c.done + got.length ≠ c.bytes → ∃ u : State, exec (.hostReadData f bytes) s = .next u.settle ∧ u.mem = (s.tick.writeMem f (c.dev + c.done) got).mem ∧ u.sent = s.sent ∧
        u.host[f].copies = s.host[f].copies.map fun x => if x.cmd = c.cmd then { x with done := c.done + got.length, buf := [] } else x))) ∧
    ((s.ring f r).en = true → ∃ u : State, exec (.hostReadError f (.ring r)) s = .next u.settle ∧ (u.ring f r).halted = true ∧ (u.ring f r).code = 2 ∧
      ∀ n, stallOf f = some n → (u.stat (.vf n)).bits.getLsbD 2 = true) ∧
    (∀ c, s.host[f].copyIn? = some c → c.cmd.f = f → s.awaits c.cmd → ∃ u : State, exec (.hostReadError f .copyIn) s = .next u.settle ∧
      s.posted u c.cmd .hostErr (c.done % 2 ^ 32) (c.done / 2 ^ 32) ∧ u.mem = s.mem) ∧
    (∀ p l, (s.ring f r).unsig = p :: l → (s.ringReg f r 0x04).getLsbD 1 = true →
      let time := (s.ringReg f r 0x20).toNat / 2 ^ 8 % 2 ^ 16
      let vec := (s.ringReg f r 0x00).toNat / 2 ^ 16 % 32
      time ≠ 0 → ∃ u : State, exec (.irqTimerExpiry f r) s = .next u ∧ (u.ring f r).unsig = [] ∧ p + time * 1100 ≤ u.now ∧
        (s.hostOpen f = true → s.host[f].held = [] → s.host[f].masked.getLsbD vec = false → u.sent = s.sent ++ [.msix f vec]) ∧ (s.host[f].masked.getLsbD vec = true → u.host[f].pba.getLsbD vec = true ∧ u.sent = s.sent)) ∧
    (∀ vec : Fin 32, ∃ u : State, exec (.msixUnmask f vec) s = .next u ∧ u.host[f].masked.getLsbD vec.val = false ∧ u.host[f].pba.getLsbD vec.val = false ∧
      (s.host[f].pba.getLsbD vec.val = true → s.hostOpen f = true → s.host[f].held = [] → u.sent = s.sent ++ [.msix f vec]) ∧ (s.host[f].pba.getLsbD vec.val = false → u.sent = s.sent)) ∧
    (∃ u : State, exec (.busMasterEnable f) s = .next u ∧ u.host[f].bme = true ∧
      (if (s.modHost f fun h => { h with bme := true }).hostOpen f = true then u.host[f].held = [] ∧ u.sent = s.sent ++ s.host[f].held else u.host[f].held = s.host[f].held ∧ u.sent = s.sent)) ∧
    (∀ m l, s.host[f].held = m :: l → s.host[f].bme = true → s.host[f].copies = [] → s.wheelOwner (mapGet 0 s.churn.turns (turnKey .host)) = fnOwner f →
      (∀ n, stallOf f = some n → s.works n = true) → ∃ u : State, exec (.wheelTurn .host) s = .next u.settle ∧ u.sent = s.sent ++ [m] ∧ u.host[f].held = l)

/-- R438–R440, R444–R447, R449: a corrected error is counted and recorded and nothing else; an uncorrectable one marks its block, is counted and recorded, and its unit is retired; a device-fatal error stops the
device; a ring link fails after 16 resends in a row; RAS_REC_POP removes the oldest record. -/
def Obligations.ErrorResults : Prop :=
  ∀ (s : State),
    (∀ (g : Fin 80) k f a, s.up = true →
      exec (.hbmPatrolRead g k f a .clean) s = .next s.tick ∧
      (∃ u : State, exec (.hbmPatrolRead g k f a .corrected) s = .next u ∧ u.ras.ce = s.ras.ce + 1 ∧ u.ras.ue = s.ras.ue ∧ u.mem.cells = s.mem.cells ∧ u.mem.poison = s.mem.poison) ∧
      ∀ x ∈ ([.hbmPatrolRead g k f a .uncorrected, .hbmUncorrRead g k f a] : List Instr), ∃ u : State, exec x s = .next u ∧ u.ras.ue = s.ras.ue + 1 ∧ u.ras.ce = s.ras.ce ∧ u.mem.cells = s.mem.cells ∧
        ((s.allocAt f a).isSome = true → u.poisoned f (a / 64 * 64) 64 = true)) ∧
    (∀ src, s.up = true → ∃ u : State, exec (.deviceFatalError src) s = .next u ∧ u.mgt.stage = 11 ∧ u.power.commit = some .fatal ∧ (u.stat .ras).bits.getLsbD 5 = true ∧ u.churn.running = false ∧
      u.regs = s.regs ∧ ∀ t : TileId, u.tiles[t].run = none) ∧
    (∀ l : Fin 8, s.up = true → ∃ u : State, exec (.ringTransferCrcFail l) s = .next u ∧ u.ras.ce = s.ras.ce + 1 ∧
      (s.ras.resends[l] < 16 → u.mgt.stage = 9 ∧ u.ras.resends[l] = s.ras.resends[l] + 1) ∧ (16 ≤ s.ras.resends[l] → u.mgt.stage = 11)) ∧
    (s.mgt.linkUp = true → s.mgt.stage = 11 ∨ s.up = true → exec .rasRecPop s = .next (s.tick.modRas fun x => { x with recs := x.recs.drop 1 }))

/-! ### The optical fabric -/

/-- R364–R368: a port trains through LASER, ALIGN, FEC and EXCHANGE to ACTIVE at the widest usable width, goes DOWN where a state passes its limit, no width is left or its lasers fail, and is DISABLED while EN is 0. -/
def Obligations.PortResults : Prop :=
  ∀ (p : PortId) (s : State), s.up = true →
    (s.mgt.linkUp = true →
      (∃ u : State, exec (.portEnable p) s = .next u ∧ u.reg (.fab p) 0x000 = 1 ∧
        (u.port p).st = (if (s.port p).st = .disabled then (if s.lasersOk p then .laser else .down) else (s.port p).st)) ∧
      (∃ u : State, exec (.portDisable p) s = .next u ∧ u.reg (.fab p) 0x000 = 0 ∧ (u.port p).st = .disabled)) ∧
    (∀ x : TrainInfo,
      ((s.port p).st.training = true → (s.port p).stAt + (s.port p).st.limit ≤ s.now → ∃ u : State, exec (.trainStateDone p x) s = .next u ∧ (u.port p).st = .down) ∧
      (s.now < (s.port p).stAt + (s.port p).st.limit →
       ((s.port p).st = .laser → exec (.trainStateDone p x) s = .next (s.tick.modPort p fun y => { y with st := .align, stAt := s.now + 1 })) ∧
       ((s.port p).st = .align → exec (.trainStateDone p x) s = .next (s.tick.modPort p fun y => { y with st := .fec, stAt := s.now + 1 })) ∧
       ((s.port p).st = .fec → ∃ u : State, exec (.trainStateDone p x) s = .next u ∧
        if (chooseWidth ((s.port p).faults ||| x.faults) (s.ownWidths p)).1 = 0 then (u.port p).st = .down
        else (u.port p).st = .exchange ∧ ∃ fl : Flit, u.fabric.sent = s.fabric.sent ++ [(p, fl)] ∧ fl.kind = .train) ∧
       ((s.port p).st = .exchange →
        let w := chooseWidth ((s.port p).faults ||| x.faults) (s.ownWidths p &&& x.widths)
        (w.1 ≠ 0 → s.rxSum p ≤ 64 → ∃ u : State, exec (.trainStateDone p x) s = .next u ∧ (u.port p).st = .active ∧ (u.port p).width = w.1 ∧ (u.port p).groups = w.2 ∧
          (u.port p).peer = some (x.peerMod, x.peerPort) ∧ (u.port p).rtt = x.rtt ∧ (∀ c < 17, mapGet 0 (u.port p).credit c = 64 * x.shares.getD c 0) ∧ (u.stat (.fab p)).bits.getLsbD 0 = true) ∧
        (w.1 = 0 ∨ 64 < s.rxSum p → ∃ u : State, exec (.trainStateDone p x) s = .next u ∧ (u.port p).st = .down)))) ∧
    ((s.port p).st.training = true → ∃ u : State, exec (.trainStateTimeout p) s = .next u ∧ (u.port p).st = .down ∧ (u.port p).width = 0 ∧ (s.port p).stAt + (s.port p).st.limit ≤ u.now) ∧
    ((s.port p).st = .down → s.portEn p = true → s.lasersOk p = true → ∃ u : State, exec (.portRetrainTimer p) s = .next u ∧ (u.port p).st = .laser ∧ (s.port p).stAt + 110000000 ≤ u.now) ∧
    (∀ lane : Fin 8, (s.port p).st = .active → (s.port p).faults.getLsbD lane.val = false →
      let w := chooseWidth ((s.port p).faults ||| BitVec.twoPow 8 lane.val) (s.ownWidths p &&& (s.port p).peerWidths)
      ∃ u : State, exec (.laneFault p lane) s = .next u ∧ (u.port p).faults = (s.port p).faults ||| BitVec.twoPow 8 lane.val ∧ (u.stat (.fab p)).bits.getLsbD 3 = true ∧
        (w.1 = 0 → (u.port p).st = .down) ∧ (w.1 ≠ 0 → (u.port p).st = .active ∧ (u.port p).inQ = (s.port p).inQ ∧ (w.2 ≠ (s.port p).groups → (u.port p).width = w.1 ∧ (u.port p).groups = w.2))) ∧
    (∀ e : Fin 8, s.fabric.laserOk[e] = true → ∃ u : State, exec (.laserBankFail e) s = .next u ∧ u.fabric.laserOk[e] = false ∧
      ∀ q : PortId, q.val / 4 = e.val → (u.port q).st = .down)

/-- R367, R369–R371, R384, R390: a flit in order is taken, and its credit is added; one that comes ahead of its turn is held; any good flit's acknowledged flits leave the replay buffer. One with an
uncorrectable codeword asks for a resend and nothing of it is taken; more than 16 of them on a group within 1 ms make its lanes faulty. A cell takes whole packets from the head of its class's queue and fills
up with idle slots, and its class is open to the end of the gate entry less GUARD, and to the boundary. -/
def Obligations.FlitResults : Prop :=
  ∀ (p : PortId) (s : State), s.up = true →
    let x := s.port p
    (∀ fl corr bad, x.st ≠ .active → exec (.flitReceive p fl corr bad) s = .next s.tick) ∧
    (∀ fl corr bad, x.st = .active → bad ≠ 0 →
      let g := x.groupOf fl.fseq
      let had := x.badOf g s.tick.now
      ∃ u : State, exec (.flitReceive p fl corr bad) s = .next u ∧ (u.port p).fecu = x.fecu + BitVec.ofNat 64 bad ∧ (u.port p).fecc = x.fecc + BitVec.ofNat 64 corr ∧
        (had + bad ≤ 16 → (u.port p).nakDue = true ∧ (u.port p).rxLast = x.rxLast ∧ (u.port p).inQ = x.inQ ∧ (u.port p).replay = x.replay ∧ (u.port p).faults = x.faults ∧
          (u.port p).badOf g s.tick.now = had + bad) ∧
        (16 < had + bad → (u.port p).faults = x.faults ||| (3 <<< (2 * g)))) ∧
    (∀ fl corr, x.st = .active → fl.nak = false →
      let ahead := (fl.fseq - x.rxLast - 1).toNat
      ∃ u : State, exec (.flitReceive p fl corr 0) s = .next u ∧ (u.port p).replay = ackReplay fl.ack x.replay ∧ (u.port p).fecc = x.fecc + BitVec.ofNat 64 corr ∧ (u.port p).nakDue = x.nakDue ∧
        (fl.kind = .idle ∨ fl.kind = .train → (u.port p).rxLast = x.rxLast ∧ (u.port p).inQ = x.inQ ∧ (u.port p).credit = x.credit) ∧
        (fl.kind = .data ∨ fl.kind = .mark →
          (fl.fseq = x.rxLast + 1 → (∀ y ∈ x.rxHold, y.fseq ≠ fl.fseq + 1) → (u.port p).rxLast = fl.fseq ∧ (∃ l, (u.port p).inQ = x.inQ ++ l) ∧
            ∀ c < 17, mapGet 0 (u.port p).credit c = mapGet 0 x.credit c + if c = fl.crcls.toNat then fl.crcnt.toNat else 0) ∧
          (0 < ahead → (u.port p).rxLast = x.rxLast ∧ (u.port p).inQ = x.inQ ∧ (u.port p).credit = x.credit ∧
            (u.port p).rxHold = if ahead < 2048 ∧ ∀ y ∈ x.rxHold, y.fseq ≠ fl.fseq then x.rxHold ++ [fl] else x.rxHold))) ∧
    (x.st = .active → x.replay.length < 2048 → x.marks = [] → x.stream.length + 9 < 40 →
      (s.tick.nextCell p = none → exec (.cellStart p) s = .next (s.tick.modPort p fun x => { x with stream := x.stream ++ List.replicate 9 idleSlot })) ∧
      (∀ pass c, s.tick.nextCell p = some (pass, c) → ∃ (u : State) (l : List Packet), exec (.cellStart p) s = .next u ∧ x.queue c = l ++ (u.port p).queue c ∧ (l.flatMap Packet.slots).length ≤ 9 ∧
        (u.port p).stream = x.stream ++ l.flatMap Packet.slots ++ List.replicate (9 - (l.flatMap Packet.slots).length) idleSlot ∧
        mapGet 0 (u.port p).credit c = mapGet 0 x.credit c - (l.map Packet.units).sum ∧ (l.map Packet.units).sum ≤ mapGet 0 x.credit c ∧
        (s.gateDur p 0 ≠ 0 → (s.gateReg p x.gate).getLsbD c = true ∧ s.now + 1 + s.guardBclk p ≤ x.gateAt + s.gateDur p x.gate ∧
          (s.churn.running = true → s.now + 1 + s.guardBclk p ≤ s.boundaryDue)))) ∧
    (x.st = .active → x.replay.length < 2048 → x.marks = [] → 31 ≤ x.stream.length → s.tick.nextCell p = none →
      ∃ (u : State) (fl : Flit), exec (.cellStart p) s = .next u ∧ u.fabric.sent = s.fabric.sent ++ [(p, fl)] ∧ fl.kind = .data ∧ fl.fseq = x.txSeq ∧ fl.ack = x.rxLast ∧ fl.slots = (x.stream ++ List.replicate 9 idleSlot).take 40 ∧
        (u.port p).txSeq = x.txSeq + 1 ∧ (u.port p).replay.map (·.flit) = x.replay.map (·.flit) ++ [fl]) ∧
    (x.st = .active → 2048 ≤ x.replay.length → ∃ (u : State) (fl : Flit), exec (.cellStart p) s = .next u ∧ u.fabric.sent = s.fabric.sent ++ [(p, fl)] ∧ fl.kind = .idle ∧ fl.slots = [] ∧ (u.port p).txSeq = x.txSeq)

/-- R373, R375–R380, R389, R392: a slice moves a packet to the output queue of its route or to its die's endpoint; a packet with no hops left is dropped; the endpoint performs a request once
its memory can be read or answers with the reason it does not, and drops a damaged one; a response ends its transaction, a timeout poisons what a read would have brought and leaves its TID to a late answer;
gates advance, and marks set the follower's boundary. -/
def Obligations.PacketResults : Prop :=
  ∀ (s : State), s.up = true →
    (∀ src (c : Fin 17), s.sourcePacket src c.val = none → exec (.packetForward src c) s = .next s.tick) ∧
    (∀ (d : Die) (c : Fin 17) k, s.sourcePacket (.endpoint d) c.val = some k → k.dst ≠ s.moduleId →
      (∀ q, s.outPort k.dst = some q → s.queueSay q k = .take → exec (.packetForward (.endpoint d) c) s = .next ((s.tick.leaveSource (.endpoint d) k).modPort q fun x => x.push k)) ∧
      (∀ q, s.outPort k.dst = some q → s.queueSay q k = .wait → exec (.packetForward (.endpoint d) c) s = .next s.tick) ∧
      (s.outPort k.dst = none → ∃ u : State, exec (.packetForward (.endpoint d) c) s = .next u ∧ (u.stat .trf).bits.getLsbD 0 = true ∧
        mapGet [] u.fabric.inject d.val = dropClass k.cls (mapGet [] s.fabric.inject d.val))) ∧
    (∀ (p : PortId) (c : Fin 17) k, s.sourcePacket (.port p) c.val = some k →
      (k.dst ≠ s.moduleId → k.hops = 0 → ∃ u : State, exec (.packetForward (.port p) c) s = .next u ∧ (u.stat .trf).bits.getLsbD 1 = true ∧ (u.port p).inQ = dropClass k.cls (s.port p).inQ) ∧
      (k.dst = s.moduleId → k.response = true → ∃ u : State, exec (.packetForward (.port p) c) s = .next u ∧ (u.port p).inQ = dropClass k.cls (s.port p).inQ ∧
        mapGet [] u.fabric.epIn (s.targetDie k).val = mapGet [] s.fabric.epIn (s.targetDie k).val ++ [k])) ∧
    (∀ (d : Die) k, (mapGet [] s.fabric.epIn d.val).find? (fun k => !k.response) = some k →
      (k.ecrcOk = false → ∃ u : State, exec (.packetDeliver d) s = .next u.settle ∧ mapGet [] u.fabric.epIn d.val = (mapGet [] s.fabric.epIn d.val).erase k ∧ u.mem = s.mem ∧ u.fabric.epOut = s.fabric.epOut) ∧
      (∀ st, k.ecrcOk = true → 1 ≤ k.ty → k.ty ≤ 4 → s.refusal k = some st → ∃ (u : State) (r : Packet) (owner : Nat), exec (.packetDeliver d) s = .next u.settle ∧ u.mem = s.mem ∧
        mapGet [] u.fabric.epOut (epKey d owner) = mapGet [] s.fabric.epOut (epKey d owner) ++ [r] ∧ r.status = st ∧ r.ty = k.ty + 0x80 ∧ r.tid = k.tid ∧ r.dst = k.src) ∧
      (∀ a, k.ecrcOk = true → k.ty = 1 → s.refusal k = none → s.poolAddr k = some a → s.tick.ready k.fn [(a, 64 * k.nblk)] [] = false →
        ∃ u : State, exec (.packetDeliver d) s = .next u.settle ∧ u.mem = s.mem ∧ u.fabric.epIn = s.fabric.epIn ∧ u.fabric.epOut = s.fabric.epOut) ∧
      (∀ a, k.ecrcOk = true → k.ty = 1 → s.refusal k = none → s.poolAddr k = some a → s.tick.ready k.fn [(a, 64 * k.nblk)] [] = true →
        ∃ (u : State) (r : Packet) (owner : Nat), exec (.packetDeliver d) s = .next u.settle ∧ u.mem.cells = s.mem.cells ∧
        mapGet [] u.fabric.epOut (epKey d owner) = mapGet [] s.fabric.epOut (epKey d owner) ++ [r] ∧ r.ty = 0x81 ∧ r.tid = k.tid ∧ r.pay = s.readMem k.fn a (64 * k.nblk) ∧
        r.status = if (List.range k.nblk).any fun i => s.poisoned k.fn (a + 64 * i) 64 then 3 else 0)) ∧
    (∀ (d : Die) k n t, (mapGet [] s.fabric.epIn d.val).find? Packet.response = some k → k.ecrcOk = true → n = k.dstStall → s.fabric.want[n] = [] →
      (s.txnsOf n).find? (fun t => decide (t.tid = k.tid) && decide (t.kind.answerType = k.ty)) = some t → k.status = 0 →
      ∀ ti tag a b, t.kind = .read ti tag a b → ∃ u : State, exec (.transactionResponse d) s = .next u.settle ∧ u.txnsOf n = (s.txnsOf n).filter (fun t => t.tid ≠ k.tid) ∧
        u.mem = s.mem.write (memKey (vfOf n) a) k.pay) ∧
    (∀ (n : StallId) tid t, (s.txnsOf n).find? (fun t => t.tid = tid) = some t → s.fabric.want[n] = [] →
      ∃ u : State, exec (.transactionTimeout n tid) s = .next u.settle ∧ t.since + s.txnLimit t.kind ≤ u.now ∧ tid ∈ u.fabric.late[n] ∧
        (∀ ti tag a b, t.kind = .read ti tag a b → u.txnsOf n = (s.txnsOf n).filter (fun t => t.tid ≠ tid) ∧ u.mem.cells = s.mem.cells ∧ ∀ i < b, memKey (vfOf n) (a + 64 * i) / 64 ∈ u.mem.poison)) ∧
    (∀ p : PortId, s.gateDur p 0 ≠ 0 → let due := (s.port p).gateAt + s.gateDur p (s.port p).gate
      s.churn.running = false ∨ due < s.boundaryDue → ∃ u : State, exec (.gateEntryAdvance p) s = .next u ∧ due ≤ u.now ∧ (u.port p).gate = s.gateNext p ∧ (u.port p).gateAt = due) ∧
    (∀ (p : PortId) num rtt, (s.port p).st = .active → ∃ u : State, exec (.markReceive p num rtt) s = .next u ∧ (u.port p).rtt = rtt ∧
      (s.syncMode ≠ 2 ∨ s.syncPort ≠ p.val ∨ s.churn.running = false → u.fabric.adjust = s.fabric.adjust) ∧
      (s.syncMode = 2 → s.syncPort = p.val → s.churn.running = true → -1100 ≤ u.fabric.adjust ∧ u.fabric.adjust ≤ 1100)) ∧
    (s.syncMode = 2 → s.churn.running = true → s.fabric.markAt + 1100 < s.markDue → ∃ u : State, exec .syncMarkTimeout s = .next u ∧ u.fabric.adjust = 0 ∧ (u.stat .trf).bits.getLsbD 4 = true ∧
      s.markDue + 1100 ≤ u.now) ∧
    (s.syncMode ≠ 2 ∨ s.churn.running = false ∨ s.markDue ≤ s.fabric.markAt + 1100 → exec .syncMarkTimeout s = .next s.tick)

/-! ### Serving -/

/-- R114–R117, R297–R303, R306, R316, R318–R321: what the serving commands do when they start, once their checks pass, and the statuses with which their first checks end them. -/
def Obligations.ServingCommandResults : Prop :=
  ∀ (n : StallId) (r : RingId) (d : Desc) (s : State),
    let f := vfOf n
    let z := s.fetched f r
    let v := s.serving[n]
    (let c := s.nextCmd 0x08 f r d
     s.accepts 0x08 f r d → addrOk (c.u 0x10 8) = true → addrOk (c.u 0x20 8) = true → z.covered f (c.u 0x10 8) (c.u 0x18 4) = true → z.poisoned f (c.u 0x10 8) (c.u 0x18 4) = false →
      (parseDob (z.readMem f (c.u 0x10 8) (c.u 0x18 4)) = none → ∃ u : State, exec (.dobLoad f r d) s = .next u.settle ∧ s.posted u c .loadRefused 0 0 ∧ u.serving = s.serving) ∧
      (∀ b, parseDob (z.readMem f (c.u 0x10 8) (c.u 0x18 4)) = some b → z.writable f (c.u 0x20 8) (2 * b.nkern) = true → sha384 (b.bytes.drop 128) = b.digest → b.level = 1 →
        (∀ x ∈ v.keep.containers, x.digest ≠ ofBytesLE b.digest) → z.kernelChecks n b = none → b.constBytes = [] →
        ((v.keep.containers ++ v.loading.map (·.cont)).map fun x => x.kernels.length).sum + b.nkern ≤ 4096 → z.hbmUse n * unitBytes + b.charge ≤ z.quotaHbm n * unitBytes →
        ∃ (u : State) (l : Loading), exec (.dobLoad f r d) s = .next u.settle ∧ u.sent = s.sent ∧ (u.serving[n]).loading = v.loading ++ [l] ∧ l.cmd = c ∧ l.cont.kernels.length = b.nkern ∧
          (l.cont.kernels.map (·.handle)).Nodup ∧ ∀ k ∈ l.cont.kernels, v.kernel? k.handle = none)) ∧
    (let c := s.nextCmd 0x09 f r d
     s.accepts 0x09 f r d → c.u 0x10 4 < 2 ^ 16 →
      (v.kernel? (BitVec.ofNat 16 (c.u 0x10 4)) = none → ∃ u : State, exec (.dobUnload f r d) s = .next u.settle ∧ s.posted u c .badDesc 0 0) ∧
      (∀ x k, v.kernel? (BitVec.ofNat 16 (c.u 0x10 4)) = some (x, k) → x.unloading = false → ∃ u : State, exec (.dobUnload f r d) s = .next u.settle ∧ s.posted u c .ok 0 0 ∧
        ∀ y ∈ (u.serving[n]).keep.containers, y.id = x.id → y.unloading = true)) ∧
    (let c := s.nextCmd 0x01 f r d
     s.accepts 0x01 f r d →
      (z.requestBad n c = true → ∃ u : State, exec (.request f r d) s = .next u.settle ∧ s.posted u c .badDesc 0 0 ∧ u.serving = s.serving) ∧
      (z.requestBad n c = false → z.poisoned f (c.u 0x18 8) (c.u 0x16 2 * 16) = true → ∃ u : State, exec (.request f r d) s = .next u.settle ∧ s.posted u c .poison 0 0 ∧ u.serving = s.serving) ∧
      (z.requestBad n c = false → z.poisoned f (c.u 0x18 8) (c.u 0x16 2 * 16) = false →
        let full := s.seqMax n ≤ v.requests.length ∨ v.clientMax (c.u 0x12 2) ≤ v.requests.countP fun q => q.client = c.u 0x12 2
        (full → ∃ u : State, exec (.request f r d) s = .next u.settle ∧ s.posted u c .busy 0 0 ∧ u.serving = s.serving) ∧
        (¬ full → ∃ (u : State) (q : Request) (j : TextJob), exec (.request f r d) s = .next u.settle ∧ u.sent = s.sent ∧ (u.serving[n]).requests = v.requests ++ [q] ∧ q.cmd = c ∧ q.tag = c.tag ∧
          q.seq = v.freeSeq ∧ q.home ∈ s.homeDies n ∧ q.phase = .early ∧ q.stage = 1 ∧ q.failed = none ∧ (u.serving[n]).text = v.text ++ [j] ∧ j.work = .token c.tag ∧ j.die = q.home))) ∧
    (let c := s.nextCmd 0x02 f r d
     let hit := fun (q : Request) => match c.u 0x16 1 with | 0 => decide (q.tag.toNat = c.u 0x10 4) | 1 => !q.dispatch && decide (q.client = c.u 0x14 2) | _ => true
     s.accepts 0x02 f r d →
      (2 < c.u 0x16 1 → ∃ u : State, exec (.cancel f r d) s = .next u.settle ∧ s.posted u c .badDesc 0 0) ∧
      (c.u 0x16 1 ≤ 2 → (∀ q ∈ v.requests, hit q = true → q.cancelled = true) → ∃ u : State, exec (.cancel f r d) s = .next u.settle ∧ s.posted u c .notFound 0 0) ∧
      (c.u 0x16 1 ≤ 2 → (∃ q ∈ v.requests, hit q = true ∧ q.cancelled = false) → ∃ u : State, exec (.cancel f r d) s = .next u.settle ∧
        ∀ q ∈ (u.serving[n]).requests, hit q = true → q.cancelled = true)) ∧
    (let c := s.nextCmd 0x03 f r d
     let k := c.u 0x18 4
     let item := fun (i : Nat) => z.readMem f (c.u 0x10 8 + 72 * i) 72
     let named := fun (h : BitVec 16) => ∃ x y, v.kernel? h = some (x, y) ∧ x.unloading = false
     s.accepts 0x03 f r d →
      (k = 0 ∨ 1024 < k → ∃ u : State, exec (.dispatch f r d) s = .next u.settle ∧ s.posted u c .badDesc 0 0) ∧
      (1 ≤ k → k ≤ 1024 → c.u 0x1C 1 ≤ 3 ∨ c.u 0x1C 1 = 0xFF → c.u 0x1D 1 ≤ 7 → v.req? c.tag = none → addrOk (c.u 0x10 8) = true → z.covered f (c.u 0x10 8) (72 * k) = true →
        z.poisoned f (c.u 0x10 8) (72 * k) = false → v.requests.length < s.seqMax n →
        (∀ i < k, bytesZero (item i) 4 4 = true ∧ named (BitVec.ofNat 16 (bytesField (item i) 0 2)) ∧ z.boundTooLong n (BitVec.ofNat 16 (bytesField (item i) 0 2)) = false ∧
          (bytesField (item i) 2 2 = 0xFFFF ∨ named (BitVec.ofNat 16 (bytesField (item i) 2 2)))) →
        ∃ (u : State) (q : Request) (b : Batch), exec (.dispatch f r d) s = .next u.settle ∧ u.sent = s.sent ∧ (u.serving[n]).requests = v.requests ++ [q] ∧ q.tag = c.tag ∧ q.dispatch = true ∧
          u.nextBatch = s.nextBatch + 1 ∧ b ∈ (u.serving[n]).batches ∧ b.num = s.nextBatch % 2 ^ 32 ∧ b.kind = .dispatch c.tag ∧ b.roots.length = k ∧ b.retry = c.u 0x1D 1)) ∧
    (let c := s.nextCmd 0x10 f r d
     let b := z.readMem f (c.u 0x10 8) 256
     s.accepts 0x10 f r d → addrOk (c.u 0x10 8) = true → z.covered f (c.u 0x10 8) 256 = true → z.poisoned f (c.u 0x10 8) 256 = false →
      (v.progBad b = true → ∃ u : State, exec (.progBind f r d) s = .next u.settle ∧ s.posted u c .badDesc 0 0 ∧ u.serving = s.serving) ∧
      (v.progBad b = false → (∃ i < 64, ∀ p ∈ v.keep.programs, p.handle ≠ i) → ∃ (u : State) (h : Nat), exec (.progBind f r d) s = .next u.settle ∧ h < 64 ∧
        (∀ p ∈ v.keep.programs, p.handle ≠ h) ∧ (u.serving[n]).keep.programs = v.keep.programs ++ [⟨h, b, false⟩] ∧ s.posted u c .ok h 0)) ∧
    (let c := s.nextCmd 0x12 f r d
     let b := z.readMem f (c.u 0x10 8) 64
     s.accepts 0x12 f r d → addrOk (c.u 0x10 8) = true → z.covered f (c.u 0x10 8) 64 = true → z.poisoned f (c.u 0x10 8) 64 = false →
      (z.modelBad n b = true → ∃ u : State, exec (.mdlReg f r d) s = .next u.settle ∧ s.posted u c .badDesc 0 0 ∧ u.serving = s.serving) ∧
      (z.modelBad n b = false → (∃ i < 256, ∀ p ∈ v.keep.models, p.handle ≠ i) → ∃ (u : State) (h : Nat), exec (.mdlReg f r d) s = .next u.settle ∧ h < 256 ∧
        (∀ p ∈ v.keep.models, p.handle ≠ h) ∧ (u.serving[n]).keep.models = v.keep.models ++ [⟨h, b⟩] ∧ s.posted u c .ok h 0)) ∧
    (∀ x ∈ ([(.progRetire f r d, 0x11), (.mdlRetire f r d, 0x13)] : List (Instr × Nat)),
      let c := s.nextCmd x.2 f r d
      let h := c.u 0x10 4
      let known := if x.2 = 0x11 then (v.program? h).isSome else (v.model? h).isSome
      s.accepts x.2 f r d → v.retires = [] →
        (known = false → ∃ u : State, exec x.1 s = .next u.settle ∧ s.posted u c .badDesc 0 0 ∧ u.serving = s.serving) ∧
        (known = true → (∀ q ∈ v.requests, q.dispatch = true) → ∃ u : State, exec x.1 s = .next u.settle ∧ s.posted u c .ok 0 0 ∧
          (if x.2 = 0x11 then (u.serving[n]).keep.programs = v.keep.programs.filter (fun p => p.handle ≠ h) else (u.serving[n]).keep.models = v.keep.models.filter fun p => p.handle ≠ h)) ∧
        (∀ q ∈ v.requests, known = true → q.dispatch = false → (if x.2 = 0x11 then q.program = h else v.reqModel q = some h) → ∃ u : State, exec x.1 s = .next u.settle ∧ u.sent = s.sent ∧
          (u.serving[n]).retires = [c] ∧ (u.serving[n]).keep = v.keep)) ∧
    (let c := s.nextCmd 0x14 f r d
     s.accepts 0x14 f r d →
      (255 < c.u 0x10 2 ∨ v.model? (c.u 0x12 2) = none → ∃ u : State, exec (.adpLoad f r d) s = .next u.settle ∧ s.posted u c .badDesc 0 0 ∧ u.serving = s.serving) ∧
      (c.u 0x10 2 ≤ 255 → v.model? (c.u 0x12 2) ≠ none → addrOk (c.u 0x18 8) = true → z.covered f (c.u 0x18 8) (c.u 0x20 4) = true →
        ∃ u : State, exec (.adpLoad f r d) s = .next u.settle ∧ u.sent = s.sent ∧ ∃ a ∈ (u.serving[n]).keep.adapters, a.id = c.u 0x10 2 ∧ a.model = c.u 0x12 2 ∧ (a.next = some (c, c.u 0x18 8, c.u 0x20 4) ∨ c ∈ a.queue))) ∧
    (let c := s.nextCmd 0x15 f r d
     s.accepts 0x15 f r d →
      (4095 < c.u 0x10 2 ∨ 4096 < c.u 0x12 2 → ∃ u : State, exec (.cltSet f r d) s = .next u.settle ∧ s.posted u c .badDesc 0 0 ∧ u.serving = s.serving) ∧
      (c.u 0x10 2 ≤ 4095 → c.u 0x12 2 ≤ 4096 → ∃ u : State, exec (.cltSet f r d) s = .next u.settle ∧ s.posted u c .ok 0 0 ∧
        (∃ x ∈ (u.serving[n]).keep.clients, x.id = c.u 0x10 2) ∧ ∀ x ∈ (u.serving[n]).keep.clients, x.id = c.u 0x10 2 → x.next = some (c.u 0x12 2, BitVec.ofNat 32 (c.u 0x14 4)))) ∧
    (let c := s.nextCmd 0x16 f r d
     let hit := fun (h : PfxHandle) => c.u 0x12 1 = 1 ∨ h.key.ns = c.u 0x10 2 + 1
     s.accepts 0x16 f r d →
      (1 < c.u 0x12 1 → ∃ u : State, exec (.pfxDrop f r d) s = .next u.settle ∧ s.posted u c .badDesc 0 0 ∧ u.serving = s.serving) ∧
      (c.u 0x12 1 ≤ 1 → c.u 0x10 2 ≤ 4095 → ∃ (u : State) (k : Nat), exec (.pfxDrop f r d) s = .next u.settle ∧ s.posted u c .ok k 0 ∧ k ≤ v.handles.length ∧
        ∀ h ∈ (u.serving[n]).handles, hit h → h.dropped = true)) ∧
    (let c := s.nextCmd 0x17 f r d
     let b := z.readMem f (c.u 0x10 8) 128
     s.accepts 0x17 f r d → addrOk (c.u 0x10 8) = true → z.covered f (c.u 0x10 8) 128 = true → z.poisoned f (c.u 0x10 8) 128 = false →
      (z.cfgBad n b = true → ∃ u : State, exec (.srvCfg f r d) s = .next u.settle ∧ s.posted u c .badDesc 0 0 ∧ u.serving = s.serving) ∧
      (z.cfgBad n b = false → (v.requests ≠ [] ∨ v.keep.programs ≠ []) → ∃ u : State, exec (.srvCfg f r d) s = .next u.settle ∧ s.posted u c .cfgReject 0 0 ∧ u.serving = s.serving) ∧
      (z.cfgBad n b = false → v.requests = [] → v.keep.programs = [] → ∃ u : State, exec (.srvCfg f r d) s = .next u.settle ∧ s.posted u c .ok 0 0 ∧
        (u.serving[n]).keep.cfg = { v.keep.cfg with pt := bytesField b 0 8, row := bytesField b 8 8, prog := bytesField b 0x10 8, next := some (cfgTrigs b) }))

/-- R114, R116, R127, R304, R307–R309, R316, R19: the serving logic's own steps: a translation ends and its load completes; a waiting batch is placed whole once its inbox has room; a trigger batch or a generation
batch is made when its conditions hold; a prompt is taken with its pages reserved, or fails when it is too long; a version that nothing pins is released; a held entry is pushed once its share has room. -/
def Obligations.ServingEventResults : Prop :=
  ∀ (n : StallId) (d : Die) (s : State), s.up = true →
    let v := s.serving[n]
    (∀ h l, v.loading.find? (fun l => l.cont.id = h) = some l → l.cmd.f = vfOf n → s.awaits l.cmd →
      ∃ (u : State) (c : Container), exec (.translationDone n h) s = .next u.settle ∧ s.posted u l.cmd .ok l.cont.kernels.length 0 ∧ (u.serving[n]).keep.containers = v.keep.containers ++ [c] ∧
        c.id = l.cont.id ∧ c.kernels = l.cont.kernels ∧ c.charge ≤ l.cont.charge ∧ (u.serving[n]).loading = v.loading.filter fun x => x.cont.id ≠ h) ∧
    ((∀ b ∈ v.batches, b.waiting = true → b.die ≠ d) → exec (.dispatchPlace n d) s = .next s.tick.settle) ∧
    (∀ b, v.batches.find? (fun b => b.waiting && decide (b.die = d)) = some b → v.batch? b.num = some b →
      ((v.inboxOf d).length + b.roots.length ≤ 1024 → ∃ u : State, exec (.dispatchPlace n d) s = .next u.settle ∧ (u.serving[n]).inboxOf d = v.inboxOf d ++ b.items ∧
        ∀ x ∈ (u.serving[n]).batches, x.num = b.num → x.waiting = false) ∧
      (1024 < (v.inboxOf d).length + b.roots.length → ∃ u : State, exec (.dispatchPlace n d) s = .next u.settle ∧ (u.serving[n]).inboxOf d = v.inboxOf d)) ∧
    (∀ a m x c v0, v.keep.adapters.find? (fun x => x.id = a && x.model = m) = some x → x.old = some (c, v0) →
      (v.pinned a m v0 = true → exec (.adpVersionRelease n ⟨a, m⟩) s = .next s.tick.settle) ∧
      (v.pinned a m v0 = false → c.f = vfOf n → s.awaits c → ∃ u : State, exec (.adpVersionRelease n ⟨a, m⟩) s = .next u.settle ∧ s.posted u c .ok x.ver v0)) ∧
    (∀ stage : Fin 8, stage.val ≠ 2 → stage.val ≠ 4 → stage.val ≠ 6 → exec (.triggerBatchPlace n d stage) s = .next s.tick.settle ∧ exec (.triggerMaxwaitExpiry n d stage) s = .next s.tick.settle) ∧
    (∀ (stage : Fin 8) (i : Nat) (x : Nat), trigSlot stage.val = some i → oldestSince (v.queue d (2 * i)) = some x →
      let t := v.keep.cfg.trig.getD i Trig.none
      let placed := fun (u : State) => u.nextBatch = s.nextBatch + 1 ∧ ∃ b ∈ (u.serving[n]).batches, b.num = s.nextBatch % 2 ^ 32 ∧ b.kind = .trigger i ∧ b.die = d ∧ b.roots.length = t.items ∧ b.retry = t.retry
      (v.kernel? t.handle).isSome = true → s.works n = true → v.trigRunning d i = false →
        (t.min ≤ (v.queue d (2 * i)).length → s.tick.slotFits n d (v.bound t.handle) = true → ∃ u : State, exec (.triggerBatchPlace n d stage) s = .next u.settle ∧ placed u) ∧
        ((v.queue d (2 * i)).length < t.min → s.now + 1 < x + t.maxWait * 1100 → exec (.triggerBatchPlace n d stage) s = .next s.tick.settle) ∧
        ((s.tick.until (x + t.maxWait * 1100)).slotFits n d (v.bound t.handle) = true → ∃ u : State, exec (.triggerMaxwaitExpiry n d stage) s = .next u.settle ∧ placed u ∧ x + t.maxWait * 1100 ≤ u.now)) ∧
    (v.queue d 6 = [] → exec (.promptTake n d) s = .next s.tick.settle) ∧
    (∀ e rest q m, v.queue d 6 = e :: rest → v.req? e.tag = some q → q.cancelled = false → q.dispatch = false → q.phase = .prompt → e.poison = false → v.reqModel q = some m →
      let len := Entry.field e.e 0x10 4
      let out := min q.maxNew (131072 - len)
      (131072 ≤ len → q.failed = none → q.heldText = [] → q.tag = e.tag → s.awaits q.cmd → ∃ u : State, exec (.promptTake n d) s = .next u.settle ∧ s.posted u q.cmd .promptTooLong q.step q.outDone ∧
        (u.serving[n]).req? e.tag = none) ∧
      (len < 131072 → q.maxNew ≠ 0 → Entry.field e.e 0x14 4 = 0 → (len + out + 63) / 64 ≤ v.kvFree m → s.tick.ready (vfOf n) [] [(v.ptAddr q, 16384)] = true → ∃ (u : State) (p : Request), exec (.promptTake n d) s = .next u.settle ∧
        (u.serving[n]).queue d 6 = rest ∧ (u.serving[n]).req? e.tag = some p ∧ p.phase = .prefill ∧ p.stage = 8 ∧ p.promptLen = len ∧ p.maxOut = out ∧ p.reserve = (len + out + 63) / 64 ∧ p.pages = [] ∧
        p.pos = 0) ∧
      (len < 131072 → q.maxNew ≠ 0 → Entry.field e.e 0x14 4 = 0 → s.tick.ready (vfOf n) [] [(v.ptAddr q, 16384)] = false →
        ∃ u : State, exec (.promptTake n d) s = .next u.settle ∧ (u.serving[n]).queue d 6 = v.queue d 6 ∧ (u.serving[n]).requests = v.requests)) ∧
    (∀ m r, v.model? m = some r → bytesField r.bytes 0 1 = 1 → v.genRunning d m = false → s.tick.slotFits n d (v.bound (BitVec.ofNat 16 (bytesField r.bytes 4 2))) = true →
      (∃ j < 16, v.genSlots.contains j = false) →
      (∀ j < 16, s.tick.ready (vfOf n) [] [(v.rowAddr j 0, 64 * (v.fill d m (bytesField r.bytes 0x20 4) (bytesField r.bytes 0x24 4)).rows.length)] = true) → (v.fill d m (bytesField r.bytes 0x20 4) (bytesField r.bytes 0x24 4)).rows ≠ [] →
      ∃ (u : State) (b : Batch) (j : Nat), exec (.genBatchPlace n d m) s = .next u.settle ∧ u.nextBatch = s.nextBatch + 1 ∧ b ∈ (u.serving[n]).batches ∧ b.num = s.nextBatch % 2 ^ 32 ∧ b.kind = .gen m j ∧
        j < 16 ∧ v.genSlots.contains j = false ∧ b.die = d ∧ b.rows.length = (v.fill d m (bytesField r.bytes 0x20 4) (bytesField r.bytes 0x24 4)).rows.length) ∧
    ((∀ w ∈ v.walks, w.die = d → w.held = none) → (∀ j ∈ v.jobs, j.die = d → j.held = none) → (∀ h ∈ v.codeHolds, h.1 ≠ d) →
      ((∀ j ∈ v.text, j.die = d → j.held = []) → exec (.engineHoldRetry n d) s = .next s.tick.settle) ∧
      (∀ j q e, v.text.filter (fun j => decide (j.die = d) && !j.held.isEmpty) = [j] → j.held = [(q, e)] → q < 6 → s.queueFull n d q = false →
        ∃ u : State, exec (.engineHoldRetry n d) s = .next u.settle ∧ (u.serving[n]).queue d q = v.queue d q ++ [{ e with since := s.now + 1 }] ∧
          (j.mask ≠ .after → (u.serving[n]).text = v.text.filter fun x => x.id ≠ j.id) ∧
          (j.mask = .after → ∀ x ∈ (u.serving[n]).text, x.id = j.id → x.held = [] ∧ x.mask = .now)))

/-! ### Search, gather and text -/

/-- R186, R188, R191, R211–R214, Table 8.8: the commands on indexes. IDX_REGISTER gives a free handle or ends with the status of the check that fails; an update, a sweep and a retirement of an index on
which nothing else runs begin at once; an unknown or retiring index gives BAD_INDEX. -/
def Obligations.IndexCommandResults : Prop :=
  ∀ (n : StallId) (r : RingId) (d : Desc) (s : State),
    let f := vfOf n
    let z := s.fetched f r
    let v := s.serving[n]
    (let c := s.nextCmd 0x20 f r d
     s.accepts 0x20 f r d →
      (∀ st, z.indexCheck n c = .error st → st ≠ .poison → ∃ u : State, exec (.idxRegister f r d) s = .next u.settle ∧ s.posted u c st 0 0 ∧ u.serving = s.serving) ∧
      (∀ x, z.indexCheck n c = .ok x → x.handle < 16 ∧ x.epoch = 0 ∧ (∀ y ∈ v.keep.indexes, y.handle ≠ x.handle) ∧ ∃ u : State, exec (.idxRegister f r d) s = .next u.settle ∧
        s.posted u c .ok x.handle 0 ∧ (u.serving[n]).keep.indexes = v.keep.indexes ++ [x])) ∧
    (∀ y ∈ ([(.idxUpdate f r d, 0x21), (.idxSweep f r d, 0x22), (.idxRetire f r d, 0x23)] : List (Instr × Nat)),
      let c := s.nextCmd y.2 f r d
      s.accepts y.2 f r d → (∀ x, v.index? (c.u 0x10 4) = some x → x.retiring = true) →
        ∃ u : State, exec y.1 s = .next u.settle ∧ s.posted u c .badIndex 0 0 ∧ u.serving = s.serving) ∧
    (let c := s.nextCmd 0x21 f r d
     let k := c.u 0x20 4
     ∀ x, s.accepts 0x21 f r d → v.idxCmds = [] → v.index? (c.u 0x10 4) = some x → x.retiring = false →
      let ok := decide (1 ≤ k) && decide (k ≤ 4096) && addrOk (c.u 0x18 8) && addrOk (c.u 0x28 8) && z.covered f (c.u 0x18 8) ((16 + x.w / 8) * k) && z.writable f (c.u 0x28 8) k
      (ok = false → ∃ u : State, exec (.idxUpdate f r d) s = .next u.settle ∧ s.posted u c .badDesc 0 0) ∧
      (ok = true → x.epoch = 0xFFFFFFFFFE → ∃ u : State, exec (.idxUpdate f r d) s = .next u.settle ∧ s.posted u c .indexFull 0 0) ∧
      (ok = true → x.epoch ≠ 0xFFFFFFFFFE → z.ready f [(c.u 0x18 8, (16 + x.w / 8) * k)] [] = false → ∃ u : State, exec (.idxUpdate f r d) s = .next u.settle ∧ u.sent = s.sent ∧
        (u.serving[n]).idxCmds = [⟨c, c.u 0x10 4, .wait⟩]) ∧
      (ok = true → x.epoch ≠ 0xFFFFFFFFFE → z.ready f [(c.u 0x18 8, (16 + x.w / 8) * k)] [] = true → ∃ (u : State) (ops : List UpdOp), exec (.idxUpdate f r d) s = .next u.settle ∧ u.sent = s.sent ∧ ops.length = k ∧
        (u.serving[n]).idxCmds = [⟨c, c.u 0x10 4, .update ops (c.u 0x28 8)⟩])) ∧
    (let c := s.nextCmd 0x22 f r d
     let i := c.u 0x14 4
     let starts := fun (x : Index) (i : Nat) (l : List Nat) => ∃ u : State, exec (.idxSweep f r d) s = .next u.settle ∧ u.sent = s.sent ∧
       (u.serving[n]).idxCmds = [⟨c, c.u 0x10 4, .sweep { shard := i, emin := v.eMin x, left := l, freed := 0, later := 0, ctx := none, at_ := 0 }⟩]
     ∀ x, s.accepts 0x22 f r d → v.idxCmds = [] → v.index? (c.u 0x10 4) = some x → x.retiring = false →
      (x.shards.length ≤ i → i ≠ 0xFFFF → ∃ u : State, exec (.idxSweep f r d) s = .next u.settle ∧ s.posted u c .badIndex 0 0) ∧
      (i < x.shards.length → i ≠ 0xFFFF → starts x i []) ∧ (0 < x.shards.length → i = 0xFFFF → starts x 0 (List.range x.shards.length).tail)) ∧
    (let c := s.nextCmd 0x23 f r d
     let h := c.u 0x10 4
     ∀ x, s.accepts 0x23 f r d → v.idxCmds = [] → v.index? h = some x → x.retiring = false →
      (v.indexQuiet h = true → ∃ u : State, exec (.idxRetire f r d) s = .next u.settle ∧ s.posted u c .ok 0 0 ∧ (u.serving[n]).keep.indexes = v.keep.indexes.filter fun y => y.handle ≠ h) ∧
      (v.indexQuiet h = false → ∃ u : State, exec (.idxRetire f r d) s = .next u.settle ∧ u.sent = s.sent ∧ ∃ y, (u.serving[n]).index? h = some y ∧ y.retiring = true))

/-- R195–R206, R212–R215: the engines of the search: in a turn of its Stall the dispatcher takes the oldest code entry, discards that of an ended request, refuses one whose index is unknown with NO_INDEX
(holding the refusal while the share is full) or starts its walks, one for each shard of its mask in ascending order; META of a node lets its code be read, its distance enters it in the queue, the block is
written before the result is posted; an operation of an update ends; a sweep frees or counts one dead node in a turn of its engine, and goes on to its next shard or ends with its counts. -/
def Obligations.SearchEventResults : Prop :=
  ∀ (n : StallId) (d : Die) (ctx : Nat) (s : State), s.up = true →
    let f := vfOf n
    let v := s.serving[n]
    (v.queue d 1 = [] → exec (.codeEntryTake n d) s = .next s.tick.settle) ∧
    (v.dispTurn d = false → exec (.codeEntryTake n d) s = .next s.tick.settle ∧ exec (.walkStart n d) s = .next s.tick) ∧
    (∀ e rest, v.queue d 1 = e :: rest → s.works n = true → s.halted = false → v.dispTurn d = true → (∀ y ∈ v.disps, y.die ≠ d) →
      (v.req? e.tag = none → ∃ u : State, exec (.codeEntryTake n d) s = .next u.settle ∧ (u.serving[n]).queue d 1 = rest ∧ (u.serving[n]).disps = v.disps) ∧
      (∀ q, v.req? e.tag = some q → e.poison = false → v.index? (Entry.field e.e 6 2) = none →
        (s.queueFull n q.home 2 = false → ∃ (u : State) (y : QEntry), exec (.codeEntryTake n d) s = .next u.settle ∧ (u.serving[n]).queue d 1 = rest ∧
          (u.serving[n]).queue q.home 2 = v.queue q.home 2 ++ [y] ∧ y.e = codeRefusal e.e e.note 32) ∧
        (s.queueFull n q.home 2 = true → ∃ u : State, exec (.codeEntryTake n d) s = .next u.settle ∧ (u.serving[n]).queue d 1 = v.queue d 1 ∧ (d, e.tag) ∈ (u.serving[n]).codeHolds)) ∧
      (∀ q x, v.req? e.tag = some q → e.poison = false → v.index? (Entry.field e.e 6 2) = some x → x.retiring = false → s.codeBad f x e.e = false → s.tick.ready f (codeReads x e.e) [] = false →
        ∃ u : State, exec (.codeEntryTake n d) s = .next u.settle ∧ (u.serving[n]).disps = v.disps ∧ (u.serving[n]).queue d 1 = v.queue d 1) ∧
      (∀ q x, v.req? e.tag = some q → e.poison = false → v.index? (Entry.field e.e 6 2) = some x → x.retiring = false → s.codeBad f x e.e = false → s.tick.ready f (codeReads x e.e) [] = true →
        ∃ (u : State) (y : Dispatching), exec (.codeEntryTake n d) s = .next u.settle ∧ (u.serving[n]).disps = v.disps ++ [y] ∧ y.die = d ∧ y.entry = e.e ∧ y.epoch = e.note ∧
          y.left = maskShards e.e ∧ y.total = y.left.length ∧ y.next = 0 ∧ (u.serving[n]).queue d 1 = v.queue d 1)) ∧
    (∀ y i rest x q sh k, s.works n = true → s.halted = false → s.srcRun = true → v.dispTurn d = true → v.disps.find? (fun y => y.die = d) = some y → y.left = i :: rest →
      v.index? (Entry.field y.entry 6 2) = some x → v.req? (queueTag 1 y.entry) = some q → x.shards[i]? = some sh → s.freeCtx n sh.die = some k →
      ∃ (u : State) (w : Walk), exec (.walkStart n d) s = .next u ∧ (u.serving[n]).walks = v.walks ++ [w] ∧ w.ctx = k ∧ w.die = sh.die ∧ w.home = q.home ∧ w.shard = i ∧ w.walk = y.next ∧
        w.walks = y.total ∧ w.epoch = y.epoch ∧ w.insert = none ∧ (rest = [] → (u.serving[n]).queue d 1 = (v.queue d 1).drop 1 ∧ ∀ z ∈ (u.serving[n]).disps, z.die ≠ d) ∧
        (rest ≠ [] → (u.serving[n]).queue d 1 = v.queue d 1)) ∧
    (s.srcRun = false → exec (.walkStart n d) s = .next s.tick) ∧
    ((∀ w, v.walks.find? (fun w => decide (w.die = d) && decide (w.ctx = ctx)) = some w → w.flight = false) → exec (.walkMemoryResponse n d ctx) s = .next s.tick.settle) ∧
    (∀ w x sh, v.walks.find? (fun w => decide (w.die = d) && decide (w.ctx = ctx)) = some w → w.flight = true → v.index? w.index = some x → x.shards[w.shard]? = some sh →
      let goes := fun (w' : Walk) => ∃ u : State, exec (.walkMemoryResponse n d ctx) s = .next u.settle ∧ (u.serving[n]).walks = (v.modWalk d ctx fun _ => some w').walks
      let here := s.tick.ready f (w.reads x sh) []
      ((∀ k, w.req ≠ .block k) → here = false → ∃ u : State, exec (.walkMemoryResponse n d ctx) s = .next u.settle ∧ (u.serving[n]).walks = v.walks) ∧
      (∀ k, w.req = .metaOf k → here = true → s.poisoned f (sh.metaB + 16 * k) 16 = false → let m := s.nodeMeta f sh k
        m.birth ≠ noEpoch → m.birth ≤ w.epoch → goes { w with flight := false, visits := w.visits + 1, req := .codeOf k 0 0 m.attr (decide (w.epoch < m.death)) }) ∧
      (∀ k line dist attr live, w.req = .codeOf k line dist attr live → let bytes := min 64 (x.w / 8)
        let a := sh.code + k * (x.w / 8) + 64 * line
        let dist' := dist + hamming (8 * bytes) (s.readNat f a bytes) (w.code / 2 ^ (512 * line) % 2 ^ (8 * bytes))
        here = true → s.poisoned f a bytes = false →
        (512 * (line + 1) < x.w → goes { w with flight := false, req := .codeOf k (line + 1) dist' attr live }) ∧
        (x.w ≤ 512 * (line + 1) → ∃ w', goes w' ∧ (w'.queue.map fun c => (c.dist, c.node)) = ((offerCand w.ef w.queue ⟨dist', k, false⟩).map fun c => (c.dist, c.node)) ∧
          w'.results = if live = true ∧ (∀ cl ∈ w.clauses, cl.holds attr = true) ∧ w.insert = none then offerRes w.r w.results (dist', k) else w.results)) ∧
      (∀ k, w.req = .block k → (k + 1) * 64 < blockBytes w.r → goes { w with flight := false, req := .block (k + 1) }) ∧
      (∀ k, w.req = .block k → blockBytes w.r ≤ (k + 1) * 64 → s.tick.ready f [] [(w.blockAddr, blockBytes w.r)] = true → s.queueFull n w.home 2 = false →
        let e := s.tick.walkResult w
        ∃ (u : State) (y : QEntry), exec (.walkMemoryResponse n d ctx) s = .next u.settle ∧ u.mem = (s.tick.writeMem f w.blockAddr (walkBlock w x.w e) d).mem ∧ y.e = e ∧
          (u.serving[n]).queue w.home 2 = v.queue w.home 2 ++ [y] ∧ ∀ q ∈ (u.serving[n]).walks, ¬ (q.die = d ∧ q.ctx = ctx))) ∧
    ((∀ y ∈ v.idxCmds, ∀ ops a, y.run = .update ops a → readyOp ops = none) → exec (.updateOpDone n) s = .next s.tick.settle) ∧
    (∀ y ops a i o cs p x, v.idxCmds = [y] → y.run = .update ops a → readyOp ops = some (i, o, cs, p) → v.index? y.handle = some x → s.tick.ready f [] [(a + i, 1)] = false →
      ∃ u : State, exec (.updateOpDone n) s = .next u.settle ∧ (u.serving[n]).idxCmds = [y] ∧ u.mem.cells = s.mem.cells) ∧
    (∀ y ops a i o cs p x, v.idxCmds = [y] → y.run = .update ops a → readyOp ops = some (i, o, cs, p) → v.index? y.handle = some x → s.tick.ready f [] [(a + i, 1)] = true →
      ∃ u : State, exec (.updateOpDone n) s = .next u.settle ∧
        (u.serving[n]).idxCmds = [{ y with run := if (setOp ops i .done).all (fun o => o.st.isDone) then .applied else .update (setOp ops i .done) a }] ∧
        (∀ sh, o.poison = false → p = false → o.bad = false → x.shards[o.shard]? = some sh → o.node < sh.cap → s.poisoned f (sh.metaB + 16 * o.node) 16 = false →
          let m := s.nodeMeta f sh o.node
          (o.op = 1 → m.birth ≠ noEpoch → u.mem = (s.tick.writeNat f (a + i) 1 1).mem) ∧
          (o.op ≠ 1 → m.live (x.epoch + 1) = false → u.mem = (s.tick.writeNat f (a + i) 1 2).mem) ∧
          (o.op ≠ 1 → m.birth ≠ noEpoch → m.birth ≤ x.epoch → x.epoch + 1 < m.death →
            u.mem = (((s.tick.noteReads f [sh.metaRange o.node] sh.die).writeMem f (sh.metaB + 16 * o.node) (NodeMeta.bytes { m with death := x.epoch + 1 }) sh.die).writeNat f (a + i) 1 0).mem))) ∧
    ((∀ y ∈ v.idxCmds, ∀ r x sh, y.run = .sweep r → v.index? y.handle = some x → x.shards[r.shard]? = some sh → r.at_ < sh.sweepSteps) → exec (.sweepDone n) s = .next s.tick.settle) ∧
    (∀ y r x sh, v.idxCmds = [y] → y.run = .sweep r → v.index? y.handle = some x → x.shards[r.shard]? = some sh → sh.sweepSteps ≤ r.at_ →
      (r.left = [] → s.awaits y.cmd → ∃ u : State, exec (.sweepDone n) s = .next u.settle ∧ (u.serving[n]).idxCmds = [] ∧ s.posted u y.cmd .ok r.freed r.later) ∧
      (∀ j rest, r.left = j :: rest → ∃ u : State, exec (.sweepDone n) s = .next u.settle ∧
        (u.serving[n]).idxCmds = [{ y with run := .sweep { r with shard := j, emin := v.eMin x, left := rest, ctx := none, at_ := 0 } }])) ∧
    (∀ y r x sh k (e : Fin 32), v.idxCmds = [y] → y.run = .sweep r → v.index? y.handle = some x → x.shards[r.shard]? = some sh → r.ctx = some k → k % 32 = e.val → sh.die = d →
      v.walks = [] → v.disps = [] → v.queue d 1 = [] → s.srcRun = true → s.works n = true → s.wheelOwner (mapGet 0 s.churn.turns (turnKey (.walkEngine d e))) = .stall n →
      ∀ j < sh.cap, r.at_ = sh.cap + 1 + j →
        let dead := s.deadAt f sh r.emin j
        ∃ u : State, exec (.wheelTurn (.walkEngine d e)) s = .next u.settle ∧ (dead = false → u.mem.cells = s.mem.cells) ∧
          (u.serving[n]).idxCmds = [{ y with run := .sweep { r with at_ := r.at_ + 1, freed := r.freed + (if dead = true then 1 else 0),
                                                                     later := r.later + if dead = false ∧ s.deadAt f sh x.epoch j = true then 1 else 0 } }])

/-- R236, R237, R254, R255, R257, Table 10.6: the commands on tables. A PASSAGE table is registered at once, a ROWS table when its map is written, piece by piece; a replacement starts when the gather unit runs and
nothing reads the version before, ends with QUOTA when its free slots are too few, and deals with its records one after another until the last is applied; a retirement waits for the entries in progress. -/
def Obligations.TableCommandResults : Prop :=
  ∀ (n : StallId) (r : RingId) (d : Desc) (s : State),
    let f := vfOf n
    let z := s.fetched f r
    let v := s.serving[n]
    (let c := s.nextCmd 0x28 f r d
     s.accepts 0x28 f r d →
      (∀ st, z.tableCheck n c = .error st → ∃ u : State, exec (.tblRegister f r d) s = .next u.settle ∧ s.posted u c st 0 0 ∧ u.serving = s.serving) ∧
      (∀ t, z.tableCheck n c = .ok t → t.handle < 64 ∧ t.version = 0 ∧ (∀ y ∈ v.keep.tables, y.handle ≠ t.handle) ∧ ∃ u : State, exec (.tblRegister f r d) s = .next u.settle ∧
        (u.serving[n]).keep.tables = v.keep.tables ++ [t] ∧ (t.passage = true → s.posted u c .ok t.handle 0) ∧
        (t.passage = false → u.sent = s.sent ∧ (u.serving[n]).tblCmds = v.tblCmds ++ [⟨c, t.handle, .mapping 0⟩]))) ∧
    (∀ y ∈ ([(.tblReplace f r d, 0x29), (.tblRetire f r d, 0x2A)] : List (Instr × Nat)),
      let c := s.nextCmd y.2 f r d
      s.accepts y.2 f r d → (∀ t, v.table? (c.u 0x10 4) = some t → t.retiring = true ∨ t.ready = false ∨ (y.2 = 0x29 ∧ t.passage = true)) →
        ∃ u : State, exec y.1 s = .next u.settle ∧ s.posted u c .badTable 0 0 ∧ u.serving = s.serving) ∧
    (let c := s.nextCmd 0x29 f r d
     let h := c.u 0x10 4
     let k := c.u 0x20 4
     ∀ t, s.accepts 0x29 f r d → v.table? h = some t → t.retiring = false → t.ready = true → t.passage = false →
      let ok := decide (1 ≤ k) && decide (k ≤ 65536) && addrOk (c.u 0x18 8) && addrOk (c.u 0x28 8) && addrOk (c.u 0x30 8) && z.covered f (c.u 0x18 8) (8 * k) &&
        z.covered f (c.u 0x28 8) (t.rowBytes * k) && z.writable f (c.u 0x30 8) k
      let data := z.writable f t.data (t.slots * t.rowBytes)
      let list := z.ready f [(c.u 0x18 8, 8 * k)] []
      (ok = false → ∃ u : State, exec (.tblReplace f r d) s = .next u.settle ∧ s.posted u c .badDesc 0 0 ∧ u.serving = s.serving) ∧
      (ok = true → data = false → ∃ u : State, exec (.tblReplace f r d) s = .next u.settle ∧ s.posted u c .badTable 0 0 ∧ u.serving = s.serving) ∧
      (ok = true → data = true → v.tblCmds = [] →
        (s.gthRun = false ∨ v.oldReads t = true ∨ list = false → ∃ u : State, exec (.tblReplace f r d) s = .next u.settle ∧ u.sent = s.sent ∧ (u.serving[n]).tblCmds = [⟨c, h, .wait⟩] ∧
          u.mem.cells = s.mem.cells) ∧
        (s.gthRun = true → v.oldReads t = false → list = true → t.free.length + t.old.length < k → ∃ u : State, exec (.tblReplace f r d) s = .next u.settle ∧ s.posted u c .quota 0 0) ∧
        (s.gthRun = true → v.oldReads t = false → list = true → k ≤ t.free.length + t.old.length → ∃ (u : State) (y : Replacing), exec (.tblReplace f r d) s = .next u.settle ∧ u.sent = s.sent ∧
          y.recs.length = k ∧ y.changed.length = y.old.length ∧ y.changed.length ≤ y.done ∧
          ((u.serving[n]).tblCmds = [⟨c, h, .applied y⟩] ∧ y.back = [] ∧ y.done = k ∨ (u.serving[n]).tblCmds = [⟨c, h, .running y⟩] ∧ y.done ≤ k) ∧
          (s.works n = false → y.back = t.old ∧ y.done = 0 ∧ u.mem.cells = s.mem.cells)))) ∧
    (let c := s.nextCmd 0x2A f r d
     let h := c.u 0x10 4
     ∀ t, s.accepts 0x2A f r d → v.tblCmds = [] → v.table? h = some t → t.retiring = false → t.ready = true →
      (v.tableQuiet h = true → ∃ u : State, exec (.tblRetire f r d) s = .next u.settle ∧ s.posted u c .ok 0 0 ∧ (u.serving[n]).keep.tables = v.keep.tables.filter fun y => y.handle ≠ h) ∧
      (v.tableQuiet h = false → ∃ u : State, exec (.tblRetire f r d) s = .next u.settle ∧ u.sent = s.sent ∧ (u.serving[n]).tblCmds = [⟨c, h, .retire⟩] ∧
        ∃ y, (u.serving[n]).table? h = some y ∧ y.retiring = true)) ∧
    (∀ h, s.up = true →
      (v.tblCmds.find? (fun y => y.handle = h) = none → exec (.tblReplaceStart n h) s = .next s.tick.settle) ∧
      (∀ c t, v.tblCmds = [⟨c, h, .wait⟩] → c.op = 0x29 → v.table? h = some t →
        (s.gthRun = false ∨ v.oldReads t = true → exec (.tblReplaceStart n h) s = .next s.tick.settle) ∧
        (s.gthRun = true → v.oldReads t = false → s.tick.ready f [(c.u 0x18 8, 8 * c.u 0x20 4)] [] = true → c.u 0x20 4 ≤ t.free.length + t.old.length → ∃ (u : State) (y : Replacing),
          exec (.tblReplaceStart n h) s = .next u.settle ∧ y.recs.length = c.u 0x20 4 ∧ y.changed.length = y.old.length ∧
          ((u.serving[n]).tblCmds = [⟨c, h, .applied y⟩] ∧ y.back = [] ∧ y.done = y.recs.length ∨ (u.serving[n]).tblCmds = [⟨c, h, .running y⟩] ∧ y.done ≤ y.recs.length))) ∧
      ((∀ y ∈ v.tblCmds, y.handle = h → ∀ k, y.run ≠ .mapping k) → exec (.tableMapWritten n h) s = .next s.tick.settle) ∧
      (∀ y put t, v.tblCmds.find? (fun y => y.handle = h && (match y.run with | .mapping _ => true | _ => false)) = some y → y.run = .mapping put → v.table? h = some t →
        let at_ := (s.tick.writeMap n t (t.mapPieces - put) put).2
        (at_ < t.mapPieces → ∃ u : State, exec (.tableMapWritten n h) s = .next u.settle ∧ u.sent = s.sent ∧ { y with run := .mapping at_ } ∈ (u.serving[n]).tblCmds) ∧
        (t.mapPieces ≤ at_ → s.awaits y.cmd → ∃ (u : State) (t' : Table), exec (.tableMapWritten n h) s = .next u.settle ∧ s.posted u y.cmd .ok h 0 ∧ (u.serving[n]).table? h = some t' ∧ t'.ready = true ∧
          t'.free = (List.range (t.slots - t.rows)).map fun i => (i, t.rows + i))))

/-- R241–R248, Table 10.5: the gather dispatcher takes the oldest fetch entry, or answers one of an unknown table with NO_TABLE and a malformed one with BAD_ARG; an index beyond the table counts as out of range, another is
sent to the engine that its current slot and the table name; a read that completes serves its request; a part that does not come in time is missing, with an event. -/
def Obligations.GatherEventResults : Prop :=
  ∀ (n : StallId) (d : Die) (id : Nat) (s : State), s.up = true →
    let f := vfOf n
    let v := s.serving[n]
    (v.queue d 3 = [] → exec (.fetchEntryTake n d) s = .next s.tick.settle) ∧
    (∀ e rest, v.queue d 3 = e :: rest → s.works n = true → s.halted = false → s.gthRun = true → (∀ j ∈ v.jobs, j.die = d → j.count ≤ j.next) →
      (v.req? e.tag = none → ∃ u : State, exec (.fetchEntryTake n d) s = .next u.settle ∧ (u.serving[n]).queue d 3 = rest ∧ (u.serving[n]).jobs = v.jobs) ∧
      (∀ q, v.req? e.tag = some q → e.poison = false →
        (s.fetchCheck n e.e = .ok → ∃ (u : State) (j : GJob), exec (.fetchEntryTake n d) s = .next u.settle ∧ (u.serving[n]).queue d 3 = rest ∧ (u.serving[n]).jobs = v.jobs ++ [j] ∧
          j.id = v.nextJob ∧ j.die = d ∧ j.entry = e.e ∧ j.version = v.fetchVersion e ∧ j.next = 0 ∧ j.done = 0) ∧
        (s.fetchCheck n e.e ≠ .ok → e.tag = e.e.setWidth 32 → s.queueFull n q.home 4 = false → ∃ (u : State) (y : QEntry), exec (.fetchEntryTake n d) s = .next u.settle ∧ (u.serving[n]).queue d 3 = rest ∧
          (u.serving[n]).queue q.home 4 = v.queue q.home 4 ++ [y] ∧ Entry.field y.e 0 4 = Entry.field e.e 0 4 ∧ Entry.field y.e 6 2 = if s.fetchCheck n e.e = .noTable then 32 else 16))) ∧
    (v.job? id = none → exec (.indexListRead n d id) s = .next s.tick.settle) ∧
    (∀ j, v.job? id = some j → s.works n = false ∨ s.halted = true → exec (.indexListRead n d id) s = .next s.tick.settle) ∧
    (∀ j t, v.job? id = some j → j.die = d → j.held = none → j.next + 1 = j.count → j.op = 1 → j.uniq = false → v.table? j.table = some t → s.works n = true → s.halted = false →
      let a := j.indexAt j.next
      let line := [(Entry.field j.entry 8 6 + 64 * (j.next / 16), min 64 ((j.count - j.next / 16 * 16) * 4))]
      let w := s.tick.noteReads f line d
      let row := w.readNat f a 4
      s.tick.ready f line [] = true → w.poisoned f a 4 = false →
      (t.rows ≤ row → w.ready f [] (j.zeroRanges t j.next) = true → j.done + 1 < j.count → ∃ u : State, exec (.indexListRead n d id) s = .next u.settle ∧
        (u.serving[n]).job? id = some { j with next := j.next + 1, done := j.done + 1, rangeN := j.rangeN + 1 } ∧ (u.serving[n]).reads = v.reads) ∧
      (row < t.rows → j.done < j.count → w.ready f [(t.map + 16 * row, 16)] [] = true → w.poisoned f (t.map + 16 * row) 16 = false → (∀ x ∈ v.reads, x.table ≠ j.table) →
        let m := w.mapEntry f t row
        let eng := (m.cur + t.handle) % 16
        m.slotAt j.version < t.slots → v.windowUsed t.die eng < 256 → ∃ (u : State) (x : GRead), exec (.indexListRead n d id) s = .next u.settle ∧ (u.serving[n]).reads = v.reads ++ [x] ∧ x.die = t.die ∧ x.engine = eng ∧
          x.key = m.slotAt j.version ∧ x.row = row ∧ x.reqs = [(id, j.next)] ∧ x.started = false ∧ x.data = none ∧ (u.serving[n]).job? id = some { j with next := j.next + 1 })) ∧
    (v.readOf d id (fun x => x.started && x.missing.isEmpty) = none → exec (.rowReadDone n d id) s = .next s.tick.settle) ∧
    (∀ x t j i, v.readOf d id (fun x => x.started && x.missing.isEmpty) = some x → v.table? x.table = some t → t.passage = false → x.scatter = false → x.reqs = [(id, i)] → v.job? id = some j →
      j.held = none → j.uniq = false → j.done + 1 < j.count → x.from_ = none →
      let b := match x.data with | some _ => s.tick | none => (s.tick.bring n t x).1
      (x.data = none → s.tick.ready f (s.tick.readRanges n t x) [] = false → ∃ u : State, exec (.rowReadDone n d id) s = .next u.settle ∧ (u.serving[n]).reads = v.reads ∧ u.mem.cells = s.mem.cells) ∧
      ((x.data = none → s.tick.ready f (s.tick.readRanges n t x) [] = true) → b.ready f [] [(j.dst + i * j.stride, t.fullRow)] = true → ∃ (u : State) (j' : GJob), exec (.rowReadDone n d id) s = .next u.settle ∧ (u.serving[n]).reads = v.reads.filter (· ≠ x) ∧
        (u.serving[n]).job? id = some j' ∧ j'.done = j.done + 1 ∧ j'.rmiss = j.rmiss + (if x.timedOut then 1 else 0) ∧ j'.next = j.next)) ∧
    (v.readOf d id (fun x => x.started && !x.missing.isEmpty) = none → exec (.remotePartTimeout n d id) s = .next s.tick) ∧
    (∀ x y i, v.readOf d id (fun x => x.started && !x.missing.isEmpty) = some x → (s.txnsOf n).filter (fun t => (t.kind.partOf x).isSome) = [y] → y.kind.partOf x = some i →
      ∃ u : State, exec (.remotePartTimeout n d id) s = .next u ∧ y.since + s.remoteLimit ≤ u.now ∧ (u.stat .gth).bits.getLsbD 3 = true ∧
        (u.serving[n]).reads = v.reads.map fun z => if z = x then { x with missing := x.missing.filter (· ≠ i), timedOut := true } else z)

/-- R263–R266, R274–R276, R285, R291, R294: the text unit: registrations give a free handle or end with the status of the check that fails; a vocabulary completes when its structures are built; TXT_TOKENISE becomes a job of the
engine of its die, which takes steps in the Stall's turns and completes with its token count; a retirement waits for the users of what it names. -/
def Obligations.TextResults : Prop :=
  ∀ (n : StallId) (r : RingId) (d : Desc) (die : Die) (s : State),
    let f := vfOf n
    let z := s.fetched f r
    let v := s.serving[n]
    (let c := s.nextCmd 0x30 f r d
     s.accepts 0x30 f r d →
      (∀ st, z.vocabCheck n c = .error st → st ≠ .poison → ∃ u : State, exec (.txtVocabReg f r d) s = .next u.settle ∧ s.posted u c st 0 0 ∧ u.serving = s.serving) ∧
      (∀ x, z.vocabCheck n c = .ok x → x.handle < 4 ∧ x.ready = false ∧ (∀ y ∈ v.keep.vocabs, y.handle ≠ x.handle) ∧ ∃ u : State, exec (.txtVocabReg f r d) s = .next u.settle ∧
        u.sent = s.sent ∧ (u.serving[n]).keep.vocabs = v.keep.vocabs ++ [x] ∧ (u.serving[n]).vocabCmds = v.vocabCmds ++ [(c, x.handle)])) ∧
    (let c := s.nextCmd 0x31 f r d
     s.accepts 0x31 f r d →
      (∀ st, z.grammarCheck n c = .error st → st ≠ .poison → ∃ u : State, exec (.txtGrammarReg f r d) s = .next u.settle ∧ s.posted u c st 0 0 ∧ u.serving = s.serving) ∧
      (∀ x, z.grammarCheck n c = .ok x → x.handle < 64 ∧ (∀ y ∈ v.keep.grammars, y.handle ≠ x.handle) ∧ ∃ u : State, exec (.txtGrammarReg f r d) s = .next u.settle ∧
        s.posted u c .ok x.handle 0 ∧ (u.serving[n]).keep.grammars = v.keep.grammars ++ [x])) ∧
    (let c := s.nextCmd 0x32 f r d
     s.accepts 0x32 f r d →
      (∀ st, z.templateCheck n c = .error st → st ≠ .poison → ∃ u : State, exec (.txtTemplateReg f r d) s = .next u.settle ∧ s.posted u c st 0 0 ∧ u.serving = s.serving) ∧
      (∀ x, z.templateCheck n c = .ok x → x.handle < 16 ∧ (∀ y ∈ v.keep.templates, y.handle ≠ x.handle) ∧ ∃ u : State, exec (.txtTemplateReg f r d) s = .next u.settle ∧
        s.posted u c .ok x.handle 0 ∧ (u.serving[n]).keep.templates = v.keep.templates ++ [x])) ∧
    (let c := s.nextCmd 0x33 f r d
     let k := c.u 0x12 2
     s.accepts 0x33 f r d →
      (v.vocab? (c.u 0x10 1) = none → ∃ u : State, exec (.txtTokenise f r d) s = .next u.settle ∧ s.posted u c .badText 0 0 ∧ u.serving = s.serving) ∧
      (v.vocab? (c.u 0x10 1) ≠ none → v.retires = [] → 3 < c.u 0x11 1 ∨ k = 0 ∨ 16 < k → ∃ u : State, exec (.txtTokenise f r d) s = .next u.settle ∧ s.posted u c .badDesc 0 0 ∧ u.serving = s.serving) ∧
      (∀ l, v.vocab? (c.u 0x10 1) ≠ none → v.retires = [] → c.u 0x11 1 ≤ 3 → 1 ≤ k → k ≤ 16 → addrOk (c.u 0x18 8) = true → addrOk (c.u 0x20 8) = true → z.covered f (c.u 0x18 8) (16 * k) = true →
        z.writable f (c.u 0x20 8) (4 * c.u 0x28 4) = true → z.poisoned f (c.u 0x18 8) (16 * k) = false → z.bufList f (c.u 0x18 8) k = some l → (∀ x ∈ l, z.covered f x.1 x.2 = true) →
        ∃ (u : State) (j : TextJob), exec (.txtTokenise f r d) s = .next u.settle ∧ u.sent = s.sent ∧ (u.serving[n]).text = v.text ++ [j] ∧ j.work = .tokenise c ∧ j.die.val = c.u 0x11 1 ∧ j.taken = 0)) ∧
    (let c := s.nextCmd 0x34 f r d
     let h := c.u 0x14 4
     let known := match c.u 0x10 4 with
       | 0 => (v.vocab? h).isSome && !v.keep.grammars.any (fun g => g.vocab = h) && !v.keep.templates.any (fun t => t.vocab = h)
       | 1 => (v.grammar? h).isSome
       | 2 => (v.template? h).isSome
       | _ => false
     s.accepts 0x34 f r d → v.retires = [] →
      (known = false → ∃ u : State, exec (.txtRetire f r d) s = .next u.settle ∧ s.posted u c .badText 0 0 ∧ u.serving = s.serving) ∧
      (known = true → v.retireBusy c = false → ∃ u : State, exec (.txtRetire f r d) s = .next u.settle ∧ s.posted u c .ok 0 0 ∧
        (c.u 0x10 4 = 0 → (u.serving[n]).keep.vocabs = v.keep.vocabs.filter fun x => x.handle ≠ h) ∧ (c.u 0x10 4 = 1 → (u.serving[n]).keep.grammars = v.keep.grammars.filter fun x => x.handle ≠ h) ∧
        (c.u 0x10 4 = 2 → (u.serving[n]).keep.templates = v.keep.templates.filter fun x => x.handle ≠ h)) ∧
      (known = true → v.retireBusy c = true → ∃ u : State, exec (.txtRetire f r d) s = .next u.settle ∧ u.sent = s.sent ∧ (u.serving[n]).retires = [c] ∧ (u.serving[n]).keep = v.keep)) ∧
    (s.up = true →
      (∀ h, v.vocabCmds.find? (fun x => x.2 = h) = none → exec (.vocabStructuresBuilt n h) s = .next s.tick.settle) ∧
      (∀ h x voc, v.vocabCmds.find? (fun x => x.2 = h) = some x → v.keep.vocabs.find? (fun x => x.handle = h) = some voc → s.awaits x.1 →
        ∃ u : State, exec (.vocabStructuresBuilt n h) s = .next u.settle ∧ s.posted u x.1 .ok h voc.size ∧ (u.serving[n]).vocab? h = some { voc with ready := true } ∧
          ∀ y ∈ (u.serving[n]).vocabCmds, y.2 ≠ h) ∧
      (∀ i, exec (.textLineFill n die i) s = .next (s.tick.modSrv n fun v =>
        { v with text := v.text.map fun j => if j.id = i ∧ j.die = die ∧ j.line = true then { j with line := false, filled := true } else j })) ∧
      let mine := s.wheelOwner (mapGet 0 s.churn.turns (turnKey (.textEngine die))) = .stall n
      (¬ mine → exec (.textStep n die) s = .next s.tick.settle) ∧ (s.halted = true → ¬ mine) ∧
      (mine → s.works n = false ∨ s.txtRun = false ∨ v.readyJobs die (s.txtContexts n) = [] → ∃ u : State, exec (.textStep n die) s = .next u.settle ∧ u.serving = s.serving ∧ u.sent = s.sent) ∧
      (∀ j, mine → s.works n = true → s.txtRun = true → v.readyJobs die (s.txtContexts n) = [j] → j.ctx = true → j.filled = true →
        (j.taken + 1 < s.jobSteps n j → ∃ u : State, exec (.textStep n die) s = .next u.settle ∧ u.sent = s.sent ∧
          (u.serving[n]).text = v.text.map fun x => if x.id = j.id then { x with taken := x.taken + 1, filled := false } else x) ∧
        (∀ c x, s.jobSteps n j ≤ j.taken + 1 → j.work = .tokenise c → v.vocab? (c.u 0x10 1) = some x → s.awaits c →
          let bufs := (s.bufList f (c.u 0x18 8) (c.u 0x12 2)).getD []
          let t := x.tokenise (s.streamText f bufs)
          s.textBad f x bufs = false → s.vocabKept f x = true → t.invalid = 0 → s.tick.ready f (s.tick.jobRanges n j).1 (s.tick.jobRanges n j).2 = true → ∃ u : State, exec (.textStep n die) s = .next u.settle ∧ s.posted u c .ok (min (c.u 0x28 4) t.toks.length) 0 ∧
            ∀ y ∈ (u.serving[n]).text, y.id ≠ j.id)))

/-! ### Power, PMBus, security, management -/

/-- R418–R429, R432–R435, R489, R493, R499, R500, Tables 17.1, 17.5: the events of the power stage. Each condition of the input is recorded with its kind and its extreme voltage; a loss before READY turns every
rail but VSTBY off; the bank at V_RES begins the commit that leads to standby; a measured bank gives V_RES; a rail fault commits, or loses the buffer when its rail holds it. What has no cause changes the clock only. -/
def Obligations.PowerResults : Prop :=
  ∀ (x : Sample) (r : Fin 22) (row : RowId) (s : State),
    let p := s.power
    let z := s.tick.sample x
    (p.vstby = false → p.applied = false → ∀ c ∈ ([.inputDip x, .inputSag x, .inputSurge x, .inputLoss x, .inputOvervoltage x, .inputReturn x, .bankAtVres x, .holdupCommitDone x, .bankCapacitanceMeasure x,
        .bankRechargedToVres x, .vstbyRegulation x, .vstbyLoss x, .railStepDone, .railFault r, .standbyExit x, .standbyTelemetryTimer x, .thermTrip x, .thermalCycle x] : List Instr),
      exec c s = .next s.tick) ∧
    (p.applied = false ∨ p.riding = true → p.vstby = true → ∀ c ∈ ([.inputDip x, .inputSag x, .inputSurge x, .inputLoss x, .inputOvervoltage x] : List Instr), exec c s = .next s.tick) ∧
    (p.applied = true → p.riding = false →
      exec (.inputDip x) s = .next { s.tick with power := { p with dips := p.dips + 1, distReg := 0x10000001, distV := x.vmin } } ∧
      (∀ c ∈ ([(.inputSag x, 2, x.vmin, 2), (.inputSurge x, 3, x.vmax, 3)] : List (Instr × Nat × BitVec 16 × Nat)), ∃ (u : State) (us : Nat), exec c.1 s = .next u ∧ 2 ≤ us ∧
        u.power.distReg = BitVec.ofNat 32 (c.2.1 * 2 ^ 28 + min (2 ^ 28 - 1) us) ∧ u.power.distV = c.2.2.1 ∧ (u.stat .pwr).bits.getLsbD c.2.2.2 = true ∧ u.power.dips = p.dips) ∧
      (∀ c ∈ ([(.inputLoss x, 4, x.vmin, 0), (.inputOvervoltage x, 5, x.vmax, 3)] : List (Instr × Nat × BitVec 16 × Nat)), p.vstby = true → p.commit = none →
        (s.mgt.stage = 9 → ∃ u : State, exec c.1 s = .next u ∧ u.power.riding = true ∧ u.power.distReg = BitVec.ofNat 32 (c.2.1 * 2 ^ 28 + 2) ∧ u.power.distV = c.2.2.1 ∧ u.mgt.stage = 9 ∧
          u.power.commit = none ∧ (u.stat .pwr).bits.getLsbD 0 = true ∧ (u.stat .pwr).bits.getLsbD c.2.2.2 = true) ∧
        (1 ≤ s.mgt.stage → s.mgt.stage ≤ 8 → ∃ u : State, exec c.1 s = .next u ∧ u.mgt.stage = 10 ∧ u.power.mram = p.mram ∧ u.power.commit = none ∧
          ∀ i : Fin 22, u.power.rails[i] = (decide (i.val = 0) && p.rails[i])))) ∧
    (p.vstby = true → p.riding = false → exec (.inputReturn x) s = .next s.tick ∧ exec (.bankAtVres x) s = .next s.tick) ∧
    (∀ d, p.vstby = true → p.riding = true → p.dist = some d →
      (p.commit = none → s.mgt.stage ≠ 10 → ∃ u : State, exec (.inputReturn x) s = .next u ∧ u.power.riding = false ∧ u.power.dist = none ∧ u.power.vin = x.vin ∧ u.power.bankV = x.bankV ∧
        u.power.distReg = BitVec.ofNat 32 (d.kind * 2 ^ 28 + min (2 ^ 28 - 1) ((s.now + 1 - d.since) / 1100 + 2 - 100)) ∧ (u.stat .pwr).bits.getLsbD 1 = true) ∧
      (p.commit = none → s.mgt.stage = 9 → ∃ (u : State) (m : Nat × Word × BitVec 16 × Nat), exec (.bankAtVres x) s = .next u ∧ u.power.commit = some .holdup ∧ u.power.bankV = x.bankV ∧
        u.power.mram = some m ∧ m.1 = 1 ∧ u.mgt.linkUp = false ∧ u.churn.running = false ∧ u.mem.images = s.mem.images)) ∧
    (p.vstby = true → (p.commit = none → exec (.holdupCommitDone x) s = .next (s.tick.modPower fun p => { p with bankV := x.bankV })) ∧
      (∀ c, p.commit = some c → ∃ u : State, exec (.holdupCommitDone x) s = .next u ∧ u.power.commit = none ∧ u.mem.onFlash = s.mem.images ∧ u.mgt.stage = if c = .fatal then s.mgt.stage else 10)) ∧
    (p.vstby = true →
      (s.railEnabled r = false → exec (.railFault r) s = .next s.tick) ∧
      (p.rails[r] = true → bufferRail r.val = true → ∃ u : State, exec (.railFault r) s = .next u ∧ u.mgt.stage = 10 ∧ u.mgt.unsealed = [] ∧ u.power.commit = none ∧
        ∃ a b, u.power.mram = some (2, a, b, r.val)) ∧
      (p.rails[r] = true → bufferRail r.val = false → p.commit = none → s.mgt.stage ≠ 10 → ∃ u : State, exec (.railFault r) s = .next u ∧ u.power.commit = some (.rail r.val) ∧
        (∃ a b, u.power.mram = some (2, a, b, r.val)) ∧ u.mem.images = s.mem.images)) ∧
    (p.vstby = true → s.mgt.stage = 2 → s.mgt.warm = false → p.steps < 8 → ∃ u : State, exec .railStepDone s = .next u ∧ u.power.steps = p.steps + 1 ∧
      ∀ i : Fin 22, u.power.rails[i] = (p.rails[i] || decide (railStep i.val = p.steps + 1))) ∧
    (p.vstby = true → s.mgt.stage ≠ 2 ∨ s.mgt.warm = true ∨ 8 ≤ p.steps → exec .railStepDone s = .next s.tick) ∧
    (p.applied = true → p.vstby = false → ∃ u : State, exec (.vstbyRegulation x) s = .next u ∧ u.power.vstby = true ∧ u.power.inrush = false ∧ u.power.rails[(0 : Fin 22)] = true ∧ u.mgt = s.mgt) ∧
    (p.vstby = true → exec (.vstbyRegulation x) s = .next s.tick ∧ ∃ u : State, exec (.vstbyLoss x) s = .next u ∧ u.mgt.stage = 0 ∧ u.power.vstby = false ∧ u.power.applied = false ∧
      ∀ i : Fin 22, u.power.rails[i] = false) ∧
    (p.vstby = true → 6000 ≤ p.bankV.toNat → exec (.bankCapacitanceMeasure x) s = .next s.tick) ∧
    (let c := x.bankC.toNat
     p.vstby = true → p.bankV.toNat < 6000 → c ≠ 0 → ∃ u : State, exec (.bankCapacitanceMeasure x) s = .next u ∧ u.power.bankC = x.bankC ∧ u.power.bankV = x.bankV ∧
      (u.power.vres.toNat < 65535 → 4000000000 + 12960000 * c ≤ c * u.power.vres.toNat ^ 2 ∧ c * (u.power.vres.toNat - 1) ^ 2 < 4000000000 + 12960000 * c) ∧
      (1944 * c < 416000 → (u.stat .pwr).bits.getLsbD 8 = true)) ∧
    (p.vstby = true → (x.bankV.toNat < p.vres.toNat → exec (.bankRechargedToVres x) s = .next s.tick) ∧
      (p.vres.toNat ≤ x.bankV.toNat → s.up = true → exec (.bankRechargedToVres x) s = .next (s.tick.modPower fun p => { p with bankV := x.bankV }).settle) ∧
      (p.vres.toNat ≤ x.bankV.toNat → p.commit = none → s.mgt.stage = 8 → s.mgt.done7 = true → s.mgt.done8 = true → ∃ u : State, exec (.bankRechargedToVres x) s = .next u ∧ u.mgt.stage = 9 ∧
        (u.stat .mgt).bits.getLsbD 0 = true)) ∧
    ((s.mgt.stage ≠ 0 → exec (.inputApplied x) s = .next s.tick) ∧
      (s.mgt.stage = 0 → ∃ u : State, exec (.inputApplied x) s = .next u ∧ u.mgt.stage = 1 ∧ u.power.applied = true ∧ u.power.inrush = true ∧ u.mgt.starts = s.mgt.starts + 1 ∧ u.mgt.rtcUnset = true ∧
        (u.stat .mgt).bits.getLsbD 1 = true)) ∧
    (let auto := (s.reg .mgt 0x008).getLsbD 0 || p.powerReq
     p.vstby = true → s.mgt.stage = 10 → (auto = false → exec (.standbyExit x) s = .next s.tick) ∧ (auto = true → z.mayStart = false → exec (.standbyExit x) s = .next z) ∧
      (auto = true → z.mayStart = true → ∃ u : State, exec (.standbyExit x) s = .next u ∧ u.mgt.stage = 1 ∧ u.mgt.cause = 1 ∧ u.power.powerReq = false ∧ u.mgt.starts = s.mgt.starts + 1) ∧
      (∃ u : State, exec (.standbyTelemetryTimer x) s = .next u ∧ u.power.vin = x.vin ∧ u.power.bankV = x.bankV ∧ u.mgt.telem = z.snapshot)) ∧
    (s.up = true → ∃ u : State, exec (.powerExcess x) s = .next u ∧ (u.stat .pwr).bits.getLsbD 6 = true ∧
      u.churn.glideFrom = s.tick.clk ∧ u.churn.glideAt = s.now + 1 ∧
      (650 ≤ s.tick.clk → 650 ≤ u.churn.mhz ∧ u.churn.mhz ≤ s.tick.clk ∧ (675 ≤ s.tick.clk → u.churn.mhz < s.tick.clk))) ∧
    (s.up = true →
      (s.churn.running = false → exec (.ballastRaise row) s = .next s.tick.settle) ∧
      (s.churn.running = true → ∃ u : State, exec (.ballastRaise row) s = .next u.settle ∧ (u.churn.rows[row]).ballast = true) ∧
      ((s.churn.rows[row]).slot.isSome = true ∨ s.tick.ballastKept row = true → exec (.ballastRelease row) s = .next s.tick) ∧
      ((s.churn.rows[row]).slot = none → s.tick.ballastKept row = false → exec (.ballastRelease row) s = .next (s.tick.modRow row fun y => { y with ballast := false }))) ∧
    (p.vstby = true →
      (z.power.tripped = none → exec (.thermTrip x) s = .next z) ∧
      (∀ g, z.power.tripped = some g → p.commit = none → s.mgt.stage ≠ 10 → ∃ u : State, exec (.thermTrip x) s = .next u ∧ u.power.commit = some (.trip g.val) ∧ u.power.pmTemp = true ∧
        u.mgt.linkUp = false) ∧
      (let t := (z.power.groupMax 0 4).toInt
       (z.power.hot = false ∨ 45 ≤ t → exec (.thermalCycle x) s = .next z) ∧
       (z.power.hot = true → t < 45 → ∃ u : State, exec (.thermalCycle x) s = .next u ∧ u.power.hot = false ∧ u.mgt.tcyc = s.mgt.tcyc + 1)))

/-- R436, Table 17.4: PMBus. PAGE takes the input and the 22 rails; another page and a command that is not offered set CML and answer nothing; CLEAR_FAULTS clears the status; the readings are those of the power stage in LINEAR11,
the output voltage in LINEAR16 with exponent −12; the status bits are those of PMBus 1.3, and the exponent of LINEAR11 is the least whose mantissa has 10 bits (log 62). Without VSTBY, and in recovery, nothing answers. -/
def Obligations.PmbusResults : Prop :=
  ∀ (b : BitVec 8) (s : State),
    let p := s.power
    let answers := fun (c : Instr) (l : List Byte) => exec c s = .next { s.tick with answer := l }
    let lin := fun (num den : Nat) (l : List Byte) => ∃ k m, k < 32 ∧ m < 1024 ∧ l = toBytesLE 2 ((k + 16) % 32 * 2048 + m) ∧ m * (den * 2 ^ k) ≤ num * 2 ^ 16 ∧
      num * 2 ^ 16 < (m + 1) * (den * 2 ^ k) ∧ (k = 0 ∨ 512 ≤ m)
    let hot := p.pmTemp || s.anyWarn
    (p.vstby = false ∨ s.mgt.stage = 12 → ∀ c ∈ ([.pmbusPage b, .pmbusRefused b, .pmbusClearFaults, .pmbusCapability, .pmbusVoutMode, .pmbusRevision, .pmbusStatusByte, .pmbusStatusWord, .pmbusStatusInput,
        .pmbusReadVin, .pmbusReadIin, .pmbusReadPin, .pmbusReadVout, .pmbusReadIout, .pmbusReadTemperature1, .pmbusReadTemperature2] : List Instr), exec c s = .next s.tick) ∧
    (p.vstby = true → s.mgt.stage ≠ 12 →
      (b.toNat < 22 ∨ b = 0xFF → exec (.pmbusPage b) s = .next { s.tick with power := { p with page := b } }) ∧
      (22 ≤ b.toNat → b ≠ 0xFF → exec (.pmbusPage b) s = .next { s.tick with power := { p with cml := true }, answer := [] }) ∧
      exec (.pmbusRefused b) s = .next { s.tick with power := { p with cml := true }, answer := [] } ∧
      exec .pmbusClearFaults s = .next { s.tick with power := { p with cml := false, pmRail := false, pmTemp := false, pmInput := 0 } } ∧
      answers .pmbusCapability [0xB0] ∧ answers .pmbusVoutMode [0x14] ∧ answers .pmbusRevision [0x33] ∧ answers .pmbusStatusInput [p.pmInput] ∧
      (∃ y : Byte, answers .pmbusStatusByte [y] ∧ ∀ i < 8, y.getLsbD i = ((decide (i = 3) && p.pmInput.getLsbD 4) || (decide (i = 2) && hot) || (decide (i = 1) && p.cml) || (decide (i = 0) && p.pmRail))) ∧
      (∃ y h : Byte, answers .pmbusStatusWord [y, h] ∧ answers .pmbusStatusByte [y] ∧ ∀ i < 8, h.getLsbD i = ((decide (i = 7) && p.pmRail) || (decide (i = 5) && decide (p.pmInput ≠ 0)))) ∧
      (∀ c ∈ ([(.pmbusReadVin, p.vin.toNat, 100), (.pmbusReadIin, p.iin.toNat, 100), (.pmbusReadPin, p.pinMs.toNat, 1)] : List (Instr × Nat × Nat)), ∃ l, answers c.1 l ∧ lin c.2.1 c.2.2 l) ∧
      (∀ i : Fin 22, p.page.toNat = i.val → answers .pmbusReadVout (toBytesLE 2 ((p.mv[i]).toNat * 4096 / 1000)) ∧ ∃ l, answers .pmbusReadIout l ∧ lin (p.amps[i]).toNat 10 l) ∧
      (22 ≤ p.page.toNat → ∀ c ∈ ([.pmbusReadVout, .pmbusReadIout] : List Instr), ∃ v, exec c s = .next { s.tick.useFree with answer := toBytesLE 2 v }) ∧
      (∀ c ∈ ([(.pmbusReadTemperature1, 52), (.pmbusReadTemperature2, 53)] : List (Instr × Fin 54)),
        let t := (p.temps[c.2]).toInt
        ∃ k m, k < 32 ∧ m < 1024 ∧ m * 2 ^ k ≤ t.natAbs * 2 ^ 16 ∧ t.natAbs * 2 ^ 16 < (m + 1) * 2 ^ k ∧ answers c.1 (toBytesLE 2 ((k + 16) % 32 * 2048 + if t < 0 then (2048 - m) % 2048 else m))))

/-- R457–R463, R471–R474, R415, R416, Tables 19.5, 19.7: firmware and attestation. A bundle that verifies stands in the slot not booted; ACTIVATE, COMMIT and REVERT need what Table 19.5 names, and COMMIT raises the floors; recovery
gathers a bundle and boots it; SPDM requests come in their order on a function's mailbox (the codes are those of SPDM 1.3, log 64); IDE keys need an established session. -/
def Obligations.SecurityResults : Prop :=
  ∀ (f : Fn) (q : SpdmReq) (m : RecoveryMessage) (st : Fin 5) (key : Nat) (ix : BitVec 8) (s : State),
    let x := s.sec
    let ended := fun (u : State) (c : Code) (k : Nat) => u.sec.result = c ∧ u.sec.reason = k ∧ (u.stat .sec).bits.getLsbD 0 = true
    (s.up = true → s.mgt.linkUp = true →
      (x.cmd ≠ none → ∀ c ∈ ([.fwStage, .fwActivate, .fwCommit, .fwRevert] : List Instr), ∃ u : State, exec c s = .next u ∧ ended u .busy 0 ∧ u.sec.cmd = x.cmd ∧ u.sec.slot = x.slot) ∧
      (x.cmd = none →
        ((s.reg .sec 0x008).getLsbD 1 = true → ∀ c ∈ ([.fwStage, .fwActivate] : List Instr), ∃ u : State, exec c s = .next u ∧ ended u .cfgReject 0 ∧ u.sec.cmd = none ∧ u.sec.trialNext = x.trialNext) ∧
        ((s.reg .sec 0x008).getLsbD 1 = false →
          exec .fwStage s = .next { s.tick with sec := { x with cmd := some s.fwPlace } } ∧
          (x.staged = false → ∃ u : State, exec .fwActivate s = .next u ∧ ended u .noStall 0 ∧ u.sec.trialNext = x.trialNext ∧ u.sec.bootNext = x.bootNext) ∧
          (x.staged = true → ∃ u : State, exec .fwActivate s = .next u ∧ ended u .ok 0 ∧ u.sec.trialNext = true ∧ u.sec.bootNext = !x.slot)) ∧
        (x.trial = false → ∀ c ∈ ([.fwCommit, .fwRevert] : List Instr), ∃ u : State, exec c s = .next u ∧ ended u .noStall 0 ∧ u.sec.bootNext = x.bootNext ∧ u.sec.floors = x.floors) ∧
        (x.trial = true →
          (∃ u : State, exec .fwCommit s = .next u ∧ ended u .ok 0 ∧ u.sec.trial = false ∧ (x.trialNext = false → u.sec.bootNext = x.slot) ∧
            ∀ i : Fin 4, u.sec.floors[i] = max x.floors[i] (x.svn (i.val + 1))) ∧
          (∃ u : State, exec .fwRevert s = .next u ∧ ended u .ok 0 ∧ u.sec.trial = false ∧ u.sec.trialNext = false ∧ u.sec.bootNext = !x.slot ∧ u.sec.floors = x.floors)))) ∧
    (s.up = true → (x.cmd = none → exec .fwStageDone s = .next s.tick) ∧
      (∀ r, x.cmd = some r → let here := s.covered pf0 r.addr r.bytes && decide (r.bytes ≤ bundleMax)
        (here = true → s.tick.canRead pf0 [(r.addr, r.bytes)] = false → exec .fwStageDone s = .next s.tick) ∧
        (here = false ∨ s.tick.canRead pf0 [(r.addr, r.bytes)] = true →
          let b := s.fwBundle r.addr r.bytes
          let ends := fun (c : Code) (e : Nat) (l : List Component) => ∃ u : State, exec .fwStageDone s = .next u ∧ ended u c e ∧ u.sec.cmd = none ∧ u.sec.slot = x.slot ∧ u.sec.staged = decide (c = .ok) ∧
            (x.slot = true → u.sec.bundleA = l ∧ u.sec.bundleB = x.bundleB) ∧ (x.slot = false → u.sec.bundleB = l ∧ u.sec.bundleA = x.bundleA) ∧ (c ≠ .ok → u.sec.trialNext = false)
          (∀ l, x.verifyBundle b = .ok l → ends .ok 0 l) ∧ (∀ e, x.verifyBundle b = .error e → ends .keyFail e [])))) ∧
    ((s.mgt.stage ≠ 12 → exec (.recoveryMessage m) s = .next s.tick) ∧
      (s.mgt.stage = 12 →
        let b := x.recovery ++ m.bytes.take 64
        (m.last = false → exec (.recoveryMessage m) s = .next { s.tick with sec := { x with recovery := b } }) ∧
        (∀ e, m.last = true → x.verifyBundle b = .error e → exec (.recoveryMessage m) s = .next { s.tick with sec := { x with recovery := [] } }) ∧
        (∀ l, m.last = true → x.verifyBundle b = .ok l → ∃ u : State, exec (.recoveryMessage m) s = .next u ∧ u.mgt.stage = 2 ∧ u.sec.slot = false ∧ u.sec.bundleA = l ∧ u.sec.bundleB = x.bundleB ∧
          u.sec.recovery = []))) ∧
    (s.up = true → s.mgt.linkUp = true →
      let a := x.ctx[f]
      let replies := fun (c : Instr) (l : List Byte) => exec c s = .next { s.tick with answer := l }
      let turns := fun (c : Instr) (g : SpdmCtx) (l : List Byte) => exec c s = .next { s.tick with sec := { x with ctx := x.ctx.set f g }, answer := l }
      (s.spdmOn f = false → ∀ c ∈ ([.spdmGetVersion f q, .spdmGetCapabilities f q, .spdmNegotiateAlgorithms f q, .spdmGetDigests f q, .spdmGetCertificate f q, .spdmChallenge f q, .spdmGetMeasurements f q,
          .spdmKeyExchange f q, .spdmFinish f q, .spdmKeyUpdate f q, .spdmHeartbeat f q, .spdmEndSession f q, .spdmUnsupported f q] : List Instr), replies c []) ∧
      (s.spdmOn f = true →
        turns (.spdmGetVersion f q) { SpdmCtx.reset with version := true } [0x04, 0x13] ∧
        replies (.spdmUnsupported f q) [0x7F, 0x07] ∧
        (a.version = false → replies (.spdmGetCapabilities f q) [0x7F, 0x04]) ∧
        (a.version = true → ∃ l, exec (.spdmGetCapabilities f q) s = .next { s.tick.useFree with sec := { x with ctx := x.ctx.set f { a with caps := true } }, answer := 0x61 :: l }) ∧
        (a.caps = false → replies (.spdmNegotiateAlgorithms f q) [0x7F, 0x04]) ∧
        (a.caps = true → turns (.spdmNegotiateAlgorithms f q) { a with algs := true } [0x63, 0x80, 0x02, 0x10, 0x02]) ∧
        (a.algs = false → ∀ c ∈ ([.spdmGetDigests f q, .spdmGetCertificate f q, .spdmChallenge f q, .spdmGetMeasurements f q, .spdmKeyExchange f q] : List Instr), replies c [0x7F, 0x04]) ∧
        (a.algs = true →
          (s.spdmBusy f = true → ∀ c ∈ ([.spdmGetCertificate f q, .spdmChallenge f q, .spdmGetMeasurements f q] : List Instr), replies c [0x7F, 0x03]) ∧
          (s.spdmBusy f = false → replies (.spdmGetDigests f q) (0x01 :: sha384 (s.chain f)) ∧ replies (.spdmGetCertificate f q) (0x02 :: s.chain f) ∧
            replies (.spdmChallenge f q) (0x03 :: sha384 (s.chain f) ++ s.spdmSign f (q.nonce ++ q.data)) ∧
            (let i := q.index.toNat
             (i ≠ 0xFF → blockCount f < i → replies (.spdmGetMeasurements f q) [0x7F, 0x01]) ∧
             (q.sign = false → i = 0 → replies (.spdmGetMeasurements f q) [0x60, BitVec.ofNat 8 (blockCount f)]) ∧
             (q.sign = false → 1 ≤ i → i ≤ blockCount f → replies (.spdmGetMeasurements f q) ([0x60, 0x01] ++ s.measureBlock f i)))) ∧
          (a.session ≠ none → replies (.spdmKeyExchange f q) [0x7F, 0x0A]) ∧
          (a.session = none → ∃ l, exec (.spdmKeyExchange f q) s = .next { s.tick.useFree with sec := { x with ctx := x.ctx.set f { a with session := some false } }, answer := 0x64 :: l })) ∧
        (a.session ≠ some false → replies (.spdmFinish f q) [0x7F, 0x04]) ∧
        (a.session = some false → turns (.spdmFinish f q) { a with session := some true } [0x65]) ∧
        (a.session ≠ some true → ∀ c ∈ ([.spdmKeyUpdate f q, .spdmHeartbeat f q, .spdmEndSession f q] : List Instr), replies c [0x7F, 0x04]) ∧
        (a.session = some true → turns (.spdmKeyUpdate f q) { a with updates := a.updates + 1 } [0x69] ∧ replies (.spdmHeartbeat f q) [0x68] ∧
          turns (.spdmEndSession f q) { a with session := none, updates := 0 } [0x6C]) ∧
        (∀ i, ix.toNat = i → i < 3 → replies (.doeDiscovery f ix) [0x01, 0x00, BitVec.ofNat 8 i, if i = 2 then 0 else BitVec.ofNat 8 (i + 1)]) ∧
        (3 ≤ ix.toNat → replies (.doeDiscovery f ix) [0xFF, 0xFF, 0, 0])) ∧
      (((x.ctx[pf0]).session = some true → exec (.ideKm st key) s = .next { s.tick with sec := { x with streams := x.streams.set st ⟨true, some key⟩ } }) ∧
        ((x.ctx[pf0]).session ≠ some true → replies (.ideKm st key) [0x7F, 0x04]) ∧
        ((x.streams[st]).secure = false → exec (.ideIntegrityFail st) s = .next s.tick) ∧
        ((x.streams[st]).secure = true → ∃ u : State, exec (.ideIntegrityFail st) s = .next u ∧ u.sec = { x with streams := x.streams.set st ⟨false, none⟩ } ∧ (u.stat .sec).bits.getLsbD 2 = true)))

/-- R460, R479–R482, R488–R492, Tables 20.3, 20.5, 20.7, 20.9: the management controller. The sideband commands answer a completion code and their bytes; SEAL fills, seals and signs the segment; READ copies the sealed segments asked for;
the clock takes the time written and the log its record; the timers append their records; the boundary-scan register is reached while BSCAN_EN is 1. -/
def Obligations.ManagementResults : Prop :=
  ∀ (op eid : BitVec 8) (first : BitVec 32) (k : BitVec 16) (v : BitVec 32) (s : State),
    let g := s.mgt
    let replies := fun (c : Instr) (l : List Byte) => exec c s = .next { s.tick with answer := l }
    let ended := fun (u : State) (c : Code) => u.mgt.logRes = c ∧ (u.stat .mgt).bits.getLsbD 3 = true
    let records := fun (u : State) (ty : Nat) => ∃ r, u.mgt.unsealed = g.unsealed ++ [r] ∧ r.ty = ty ∧ r.seq = g.logSeq ∧ u.mgt.logSeq = g.logSeq + 1
    let isSealed := fun (u : State) => ∃ r, u.mgt.segments = g.segments ++ [r] ∧ r.number = g.nextSeg ∧ r.recs.length = 1020 ∧ r.recs.take g.unsealed.length = g.unsealed ∧ u.mgt.unsealed = [] ∧
      u.mgt.nextSeg = g.nextSeg + 1
    (s.power.vstby = false ∨ g.stage = 12 → ∀ c ∈ ([.getInfo, .readTelem, .readRecords, .readLog first k, .powerOn, .sidebandUnsupported op, .setEndpointId eid, .logSealTimer, .hourlyRecordTimer,
        .flashDailyRecordTimer, .wearTableTimer, .logProgramFail, .boundaryScanAccess op] : List Instr), exec c s = .next s.tick) ∧
    (s.power.vstby = true → g.stage ≠ 12 →
      (∃ b, replies .getInfo (0 :: b) ∧ b.take 4 = toBytesLE 4 0x91401020 ∧ (b.drop 4).take 8 = deviceSerial ∧ (b.drop 12).take 4 = toBytesLE 4 s.bootWord ∧ (b.drop 16).take 4 = toBytesLE 4 s.sec.word) ∧
      replies .readTelem (0 :: words g.telem) ∧
      (g.stage = 10 → replies .readRecords [5] ∧ replies (.readLog first k) [5]) ∧
      (g.stage ≠ 10 → replies .readRecords (0 :: (s.ras.recs.take 8).flatMap ErrRec.bytes) ∧
        replies (.readLog first k) (0 :: ((s.segmentsFrom first.toNat k.toNat).flatMap Segment.bytes ++ g.aliases.flatMap id))) ∧
      (g.stage ≠ 10 ∨ (s.reg .mgt 0x008).getLsbD 2 = false → replies .powerOn [5]) ∧
      (g.stage = 10 → (s.reg .mgt 0x008).getLsbD 2 = true →
        (s.tick.mayStart = false → exec .powerOn s = .next { s.tick with power := { s.power with powerReq := true }, answer := [0] }) ∧
        (s.tick.mayStart = true → ∃ u : State, exec .powerOn s = .next u ∧ u.mgt.stage = 1 ∧ u.mgt.cause = 1 ∧ u.answer = [0])) ∧
      replies (.sidebandUnsupported op) [4] ∧
      (eid = 0 ∨ eid = 0xFF → replies (.setEndpointId eid) [2]) ∧
      (eid ≠ 0 → eid ≠ 0xFF → exec (.setEndpointId eid) s = .next { s.tick with mgt := { g with eid }, answer := [0] }) ∧
      (g.unsealed.length + 1 < 1020 →
        (∃ u : State, exec .hourlyRecordTimer s = .next u ∧ records u 4 ∧ g.hourlyAt + 3600 ≤ u.mgt.hourlyAt) ∧ (∃ u : State, exec .flashDailyRecordTimer s = .next u ∧ records u 8 ∧ g.dailyAt + 86400 ≤ u.mgt.dailyAt)) ∧
      (∃ u : State, exec .wearTableTimer s = .next u ∧ g.wearAt + 2592000 ≤ u.mgt.wearAt ∧ u.mgt.logSeq = g.logSeq + 141334) ∧
      (∃ u : State, exec .logSealTimer s = .next u ∧ g.sealedAt + 86400 ≤ u.mgt.sealedAt ∧ (g.unsealed = [] → u.mgt.segments = g.segments) ∧
        (g.unsealed ≠ [] → g.unsealed.length ≤ 1020 → g.segments.length < 4096 → isSealed u)) ∧
      (∃ u : State, exec .logProgramFail s = .next u ∧ (u.stat .mgt).bits.getLsbD 2 = true ∧ u.mgt = g) ∧
      ((s.reg .sec 0x008).getLsbD 0 = false → replies (.boundaryScanAccess op) []) ∧
      ((s.reg .sec 0x008).getLsbD 0 = true → ∃ y, exec (.boundaryScanAccess op) s = .next { s.tick.useFree with answer := toBytesLE 8 y })) ∧
    (g.linkUp = true → g.stage = 11 ∨ s.up = true →
      let n := (s.reg .mgt 0x054).toNat % 8192
      (g.logRun ≠ none → ∃ u : State, exec .logcmdRead s = .next u ∧ ended u .busy) ∧
      (g.logRun = none → n = 0 ∨ 4096 < n ∨ s.inOne pf0 s.logAddr (n * 65536) = false → ∃ u : State, exec .logcmdRead s = .next u ∧ ended u .badDesc ∧ u.mgt.logRun = none) ∧
      (g.logRun = none → 1 ≤ n → n ≤ 4096 → s.inOne pf0 s.logAddr (n * 65536) = true → exec .logcmdRead s = .next { s.tick with mgt := { g with logRun := some ⟨s.logAddr, (s.reg .mgt 0x050).toNat, n, 0⟩ } }) ∧
      (g.unsealed = [] → ∃ u : State, exec .logcmdSeal s = .next u ∧ ended u .ok ∧ u.mgt.segments = g.segments) ∧
      (g.unsealed ≠ [] → g.unsealed.length ≤ 1020 → g.segments.length < 4096 → ∃ u : State, exec .logcmdSeal s = .next u ∧ ended u .ok ∧ isSealed u)) ∧
    (g.stage = 11 ∨ s.up = true →
      (g.logRun = none → exec .logReadDone s = .next s.tick) ∧
      (∀ r, g.logRun = some r →
        let left := s.segmentsFrom (r.first + r.past) (r.n - r.past)
        (s.inOne pf0 r.addr (r.n * 65536) = false → ∃ u : State, exec .logReadDone s = .next u ∧ ended u .badDesc ∧ u.mgt.logRun = none ∧ u.mem = s.mem) ∧
        (s.inOne pf0 r.addr (r.n * 65536) = true → (s.tick.logCopy r left).2 = false → exec .logReadDone s = .next (s.tick.logCopy r left).1) ∧
        (s.inOne pf0 r.addr (r.n * 65536) = true → (s.tick.logCopy r left).2 = true → ∃ u : State, exec .logReadDone s = .next u ∧ ended u .ok ∧ u.mgt.logRun = none ∧
          u.mem = (left.foldl (fun (t : State) y => t.writeMem pf0 (r.addr + (y.number - r.first) * 65536) y.bytes) s.tick).mem))) ∧
    (∀ lo, s.up = true → g.linkUp = true → (∀ r, regAt .mgt 0x01C = some r → s.locked .mgt r = false) → mapGet none s.holdWr (regKey .mgt 0x018) = some lo → g.unsealed.length + 1 < 1020 →
      ∃ u : State, exec (.rtcSet v) s = .next u.settle ∧ u.mgt.rtc = v ++ lo ∧ u.mgt.rtcAt = s.now + 1 ∧ u.mgt.rtcUnset = false ∧ records u 12)

/-! ### The block as a whole -/

/-- A step takes the command at the front of the queue and runs it on the state with the rest of the queue; an empty queue leaves the block as it is (log 1, log 2). -/
def Obligations.StepRunsFrontCommand : Prop :=
  (∀ (c : Instr) (rest : List Instr) (s : State), step { s with pending := c :: rest } = exec c { s with pending := rest }) ∧ (∀ s : State, s.pending = [] → step s = .next s)

/-- Table 20.10, R499, R501, Table 3.2, R71: what reset leaves: READY with the Churn halted, every Stall DRY, every ring disabled and drained, every tile without a kernel, nothing allocated, memory in its canonical form and no register
written, so that each reads as its reset value. -/
def Obligations.ResetValues : Prop :=
  let s := State.reset
  s.pending = [] ∧ s.up = true ∧ s.halted = true ∧ s.churn.num = 0 ∧ s.churn.mhz = 1300 ∧ (∀ n, s.stallState n = .dry) ∧ (∀ f r, (s.ring f r).en = false ∧ (s.ring f r).drained = true) ∧
    (∀ t : TileId, s.tiles[t].run = none ∧ s.tiles[t].quar = .none) ∧ (∀ f : Fn, (s.mem.fns[f]).allocs = []) ∧ s.memOk = true ∧ (∀ b o, s.reg b o = regReset (regKey b o)) ∧
    (s.stat .mgt).bits = 1 ∧ (s.stat .chn).bits = 0 ∧ s.reg .pwr 0x004 = 2200 ∧ s.reg .chn 0x004 = 7 ∧ s.sec.idOk = true ∧ s.sec.kslots = 0x30000

/-- Every step from a state whose memory has its canonical form (addresses rising, no byte listed that is zero) answers one whose memory has it. -/
def Obligations.MemoryCanonicalKept : Prop := ∀ (s t : State), s.memOk = true → step s = .next t → t.memOk = true

/-- Every command completes, from every state: none stops the block. None touches the queue of commands, none takes no time, and none takes back a message that the host has received: what is sent goes
behind what was sent. -/
def Obligations.QueueClockMessagesKept : Prop :=
  ∀ (c : Instr) (s : State), ∃ t, exec c s = .next t ∧ t.pending = s.pending ∧ s.now < t.now ∧ s.fresh ≤ t.fresh ∧ ∃ l, t.sent = s.sent ++ l

/-- R370, R376: the slots of packets, with idle slots between them and the beginning of a packet behind, parse into the packets and the slots that are not yet whole. -/
def Obligations.PacketRoundTrip : Prop :=
  let ok := fun (k : Packet) => k.hdr.toNat % 256 ≠ 0 ∧ k.plen ≤ 8 ∧ k.pay.length = 32 * k.plen ∧ k.marks.length = (k.plen + 1) / 2
  ∀ (ks : List (Nat × Packet)) (k : Packet) (m i n : Nat), (∀ x ∈ ks, ok x.2) → ok k → m < k.slots.length →
    let l := ks.flatMap (fun x => List.replicate x.1 idleSlot ++ x.2.slots) ++ List.replicate i idleSlot ++ k.slots.take m
    l.length < n → parseSlots n l = (ks.map (·.2), k.slots.take m)
end

