-- ==== Sys2Proof/Laws/AMap.lean ====
section
/-! SUPPORT. Laws of sparse maps: what a read gives after a write, and that every operation keeps the canonical form. -/
namespace Sys2Proof.Machine

variable {α : Type}

theorem mapGet_mapPut (d : α) (k : Nat) (v : α) (m : AMap α) (j : Nat) (h : ∀ x ∈ m, x.1 ≠ k) :
    mapGet d (mapPut k v m) j = if j = k then v else mapGet d m j := by
  induction m with
  | nil => by_cases e : k = j <;> simp [mapPut, mapGet, e, eq_comm]
  | cons x m ih =>
    obtain ⟨i, w⟩ := x
    have hx : i ≠ k := h (i, w) (by simp)
    have hm := ih (fun y hy => h y (by simp [hy]))
    rw [mapPut]
    by_cases lt : i < k
    · rw [if_pos lt, mapGet, hm, mapGet]
      by_cases e : i = j
      · have : j ≠ k := by omega
        simp [e, this]
      · simp [e]
    · rw [if_neg lt, mapGet]
      by_cases e : k = j
      · simp [e]
      · have : j ≠ k := fun h => e h.symm
        simp [e, this]

theorem mapGet_filter (d : α) (p : Nat → Bool) (m : AMap α) (j : Nat) :
    mapGet d (m.filter fun x => p x.1) j = if p j then mapGet d m j else d := by
  induction m with
  | nil => simp [mapGet]
  | cons x m ih =>
    obtain ⟨k, v⟩ := x
    by_cases hk : p k <;> by_cases e : k = j <;> simp_all [mapGet]

/-- Reading after a write: the value written at its key, and the old value at every other. -/
theorem mapGet_mapSet [DecidableEq α] (d : α) (m : AMap α) (k : Nat) (v : α) (j : Nat) :
    mapGet d (mapSet d m k v) j = if j = k then v else mapGet d m j := by
  have hf : mapGet d (m.filter fun x => decide (x.1 ≠ k)) j = if j = k then d else mapGet d m j := by
    have := mapGet_filter d (fun i => decide (i ≠ k)) m j
    by_cases e : j = k <;> simp_all
  unfold mapSet
  by_cases hv : v = d
  · simp only [hv, if_true]; exact hf
  · simp only [hv, if_false]
    rw [mapGet_mapPut d k v _ j (by simp), hf]
    by_cases e : j = k <;> simp [e]

@[simp] theorem mapGet_mapSet_same [DecidableEq α] (d : α) (m : AMap α) (k : Nat) (v : α) : mapGet d (mapSet d m k v) k = v := by
  simp [mapGet_mapSet]

theorem mapGet_mapSet_other [DecidableEq α] (d : α) (m : AMap α) (k : Nat) (v : α) (j : Nat) (h : j ≠ k) :
    mapGet d (mapSet d m k v) j = mapGet d m j := by simp [mapGet_mapSet, h]

/-- A write leaves every other key, whatever default it reads as. -/
theorem mapGet_mapSet_ne [DecidableEq α] (d e : α) (m : AMap α) (k : Nat) (v : α) (j : Nat) (h : j ≠ k) :
    mapGet e (mapSet d m k v) j = mapGet e m j := by
  have hf : mapGet e (m.filter fun x => decide (x.1 ≠ k)) j = mapGet e m j := by
    have := mapGet_filter e (fun i => decide (i ≠ k)) m j
    simp_all
  unfold mapSet
  by_cases hv : v = d
  · simp only [hv, if_true]; exact hf
  · simp only [hv, if_false]
    rw [mapGet_mapPut e k v _ j (by simp), hf]
    simp [h]

/-- Removing keys leaves the others as they read. -/
theorem mapGet_mapDrop (d : α) (p : Nat → Bool) (m : AMap α) (j : Nat) : mapGet d (mapDrop p m) j = if p j then d else mapGet d m j := by
  have := mapGet_filter d (fun i => !p i) m j
  by_cases e : p j <;> simp_all [mapDrop]

/-! ### The canonical form -/

variable [DecidableEq α]

theorem mapCanonFrom_mono (d : α) (lo lo' : Nat) (m : AMap α) (h : lo' ≤ lo) (c : mapCanonFrom d lo m = true) : mapCanonFrom d lo' m = true := by
  cases m with
  | nil => rfl
  | cons x m => simp_all [mapCanonFrom]; omega

theorem mapCanonFrom_filter (d : α) (p : Nat × α → Bool) (lo : Nat) (m : AMap α) (c : mapCanonFrom d lo m = true) :
    mapCanonFrom d lo (m.filter p) = true := by
  induction m generalizing lo with
  | nil => rfl
  | cons x m ih =>
    obtain ⟨k, v⟩ := x
    simp only [mapCanonFrom, Bool.and_eq_true, decide_eq_true_eq] at c
    by_cases hp : p (k, v)
    · simp only [List.filter_cons_of_pos hp, mapCanonFrom, Bool.and_eq_true, decide_eq_true_eq]
      exact ⟨c.1, ih _ c.2⟩
    · simp only [List.filter_cons_of_neg hp]
      exact mapCanonFrom_mono d (k + 1) lo _ (by omega) (ih _ c.2)

theorem mapCanonFrom_mapPut (d : α) (k : Nat) (v : α) (hv : v ≠ d) (lo : Nat) (hlo : lo ≤ k) (m : AMap α) (hm : ∀ x ∈ m, x.1 ≠ k)
    (c : mapCanonFrom d lo m = true) : mapCanonFrom d lo (mapPut k v m) = true := by
  induction m generalizing lo with
  | nil => simp [mapPut, mapCanonFrom, hlo, hv]
  | cons x m ih =>
    obtain ⟨j, w⟩ := x
    have hj : j ≠ k := hm (j, w) (by simp)
    simp only [mapCanonFrom, Bool.and_eq_true, decide_eq_true_eq] at c
    by_cases lt : j < k
    · simp only [mapPut, lt, if_true, mapCanonFrom, Bool.and_eq_true, decide_eq_true_eq]
      exact ⟨c.1, ih _ (by omega) (fun y hy => hm y (by simp [hy])) c.2⟩
    · simp only [mapPut, lt, if_false, mapCanonFrom, Bool.and_eq_true, decide_eq_true_eq]
      exact ⟨⟨hlo, hv⟩, ⟨by omega, c.1.2⟩, c.2⟩

theorem mapCanon_nil (d : α) : mapCanon d [] = true := rfl

/-- Storing keeps the canonical form. -/
theorem mapCanon_mapSet (d : α) (m : AMap α) (k : Nat) (v : α) (c : mapCanon d m = true) : mapCanon d (mapSet d m k v) = true := by
  unfold mapSet mapCanon
  have cf := mapCanonFrom_filter d (fun x => decide (x.1 ≠ k)) 0 m c
  by_cases hv : v = d
  · simpa [hv] using cf
  · simp only [hv, if_false]
    exact mapCanonFrom_mapPut d k v hv 0 (Nat.zero_le _) _ (by simp) cf

/-- Filtering keeps the canonical form. -/
theorem mapCanon_filter (d : α) (p : Nat × α → Bool) (m : AMap α) (c : mapCanon d m = true) : mapCanon d (m.filter p) = true :=
  mapCanonFrom_filter d p 0 m c

/-- Removing keys keeps the canonical form. -/
theorem mapCanon_mapDrop (d : α) (p : Nat → Bool) (m : AMap α) (c : mapCanon d m = true) : mapCanon d (mapDrop p m) = true :=
  mapCanon_filter d _ m c

/-- A fold of steps that each keep the canonical form keeps it. -/
theorem mapCanon_foldl {β : Type} (d : α) (f : AMap α → β → AMap α) (hf : ∀ m b, mapCanon d m = true → mapCanon d (f m b) = true) (l : List β) (m : AMap α)
    (c : mapCanon d m = true) : mapCanon d (l.foldl f m) = true := by
  induction l generalizing m with
  | nil => exact c
  | cons b l ih => exact ih _ (hf _ _ c)

end Sys2Proof.Machine
end

