-- ==== Sys2Proof/Laws/State.lean ====
section
/-! SUPPORT. What each named update of the state leaves in each field: one lemma per field per update, so that no proof unfolds a record update. -/
namespace Sys2Proof.Machine

variable (s : State)

/-! ### tick -/

@[simp] theorem tick_pending : s.tick.pending = s.pending := rfl
@[simp] theorem tick_now : s.tick.now = s.now + 1 := rfl
@[simp] theorem tick_fresh : s.tick.fresh = s.fresh := rfl
@[simp] theorem tick_regs : s.tick.regs = s.regs := rfl
@[simp] theorem tick_pendT : s.tick.pendT = s.pendT := rfl
@[simp] theorem tick_holdRd : s.tick.holdRd = s.holdRd := rfl
@[simp] theorem tick_holdWr : s.tick.holdWr = s.holdWr := rfl
@[simp] theorem tick_answer : s.tick.answer = s.answer := rfl
@[simp] theorem tick_status : s.tick.status = s.status := rfl
@[simp] theorem tick_counters : s.tick.counters = s.counters := rfl
@[simp] theorem tick_host : s.tick.host = s.host := rfl
@[simp] theorem tick_sent : s.tick.sent = s.sent := rfl
@[simp] theorem tick_stalls : s.tick.stalls = s.stalls := rfl
@[simp] theorem tick_churn : s.tick.churn = s.churn := rfl
@[simp] theorem tick_tiles : s.tick.tiles = s.tiles := rfl
@[simp] theorem tick_serving : s.tick.serving = s.serving := rfl
@[simp] theorem tick_nextBatch : s.tick.nextBatch = s.nextBatch := rfl
@[simp] theorem tick_mem : s.tick.mem = s.mem := rfl
@[simp] theorem tick_fabric : s.tick.fabric = s.fabric := rfl
@[simp] theorem tick_power : s.tick.power = s.power := rfl
@[simp] theorem tick_ras : s.tick.ras = s.ras := rfl
@[simp] theorem tick_sec : s.tick.sec = s.sec := rfl
@[simp] theorem tick_mgt : s.tick.mgt = s.mgt := rfl

/-! ### until -/

@[simp] theorem until_pending (t : Nat) : (s.until t).pending = s.pending := rfl
@[simp] theorem until_now (t : Nat) : (s.until t).now = max s.now t := rfl
@[simp] theorem until_fresh (t : Nat) : (s.until t).fresh = s.fresh := rfl
@[simp] theorem until_regs (t : Nat) : (s.until t).regs = s.regs := rfl
@[simp] theorem until_pendT (t : Nat) : (s.until t).pendT = s.pendT := rfl
@[simp] theorem until_holdRd (t : Nat) : (s.until t).holdRd = s.holdRd := rfl
@[simp] theorem until_holdWr (t : Nat) : (s.until t).holdWr = s.holdWr := rfl
@[simp] theorem until_answer (t : Nat) : (s.until t).answer = s.answer := rfl
@[simp] theorem until_status (t : Nat) : (s.until t).status = s.status := rfl
@[simp] theorem until_counters (t : Nat) : (s.until t).counters = s.counters := rfl
@[simp] theorem until_host (t : Nat) : (s.until t).host = s.host := rfl
@[simp] theorem until_sent (t : Nat) : (s.until t).sent = s.sent := rfl
@[simp] theorem until_stalls (t : Nat) : (s.until t).stalls = s.stalls := rfl
@[simp] theorem until_churn (t : Nat) : (s.until t).churn = s.churn := rfl
@[simp] theorem until_tiles (t : Nat) : (s.until t).tiles = s.tiles := rfl
@[simp] theorem until_serving (t : Nat) : (s.until t).serving = s.serving := rfl
@[simp] theorem until_nextBatch (t : Nat) : (s.until t).nextBatch = s.nextBatch := rfl
@[simp] theorem until_mem (t : Nat) : (s.until t).mem = s.mem := rfl
@[simp] theorem until_fabric (t : Nat) : (s.until t).fabric = s.fabric := rfl
@[simp] theorem until_power (t : Nat) : (s.until t).power = s.power := rfl
@[simp] theorem until_ras (t : Nat) : (s.until t).ras = s.ras := rfl
@[simp] theorem until_sec (t : Nat) : (s.until t).sec = s.sec := rfl
@[simp] theorem until_mgt (t : Nat) : (s.until t).mgt = s.mgt := rfl

/-! ### useFree -/

@[simp] theorem useFree_pending : s.useFree.pending = s.pending := rfl
@[simp] theorem useFree_now : s.useFree.now = s.now := rfl
@[simp] theorem useFree_fresh : s.useFree.fresh = s.fresh + 1 := rfl
@[simp] theorem useFree_regs : s.useFree.regs = s.regs := rfl
@[simp] theorem useFree_pendT : s.useFree.pendT = s.pendT := rfl
@[simp] theorem useFree_holdRd : s.useFree.holdRd = s.holdRd := rfl
@[simp] theorem useFree_holdWr : s.useFree.holdWr = s.holdWr := rfl
@[simp] theorem useFree_answer : s.useFree.answer = s.answer := rfl
@[simp] theorem useFree_status : s.useFree.status = s.status := rfl
@[simp] theorem useFree_counters : s.useFree.counters = s.counters := rfl
@[simp] theorem useFree_host : s.useFree.host = s.host := rfl
@[simp] theorem useFree_sent : s.useFree.sent = s.sent := rfl
@[simp] theorem useFree_stalls : s.useFree.stalls = s.stalls := rfl
@[simp] theorem useFree_churn : s.useFree.churn = s.churn := rfl
@[simp] theorem useFree_tiles : s.useFree.tiles = s.tiles := rfl
@[simp] theorem useFree_serving : s.useFree.serving = s.serving := rfl
@[simp] theorem useFree_nextBatch : s.useFree.nextBatch = s.nextBatch := rfl
@[simp] theorem useFree_mem : s.useFree.mem = s.mem := rfl
@[simp] theorem useFree_fabric : s.useFree.fabric = s.fabric := rfl
@[simp] theorem useFree_power : s.useFree.power = s.power := rfl
@[simp] theorem useFree_ras : s.useFree.ras = s.ras := rfl
@[simp] theorem useFree_sec : s.useFree.sec = s.sec := rfl
@[simp] theorem useFree_mgt : s.useFree.mgt = s.mgt := rfl

/-! ### setReg -/

@[simp] theorem setReg_pending (b : Block) (o : Nat) (v : Word) : (s.setReg b o v).pending = s.pending := rfl
@[simp] theorem setReg_now (b : Block) (o : Nat) (v : Word) : (s.setReg b o v).now = s.now := rfl
@[simp] theorem setReg_fresh (b : Block) (o : Nat) (v : Word) : (s.setReg b o v).fresh = s.fresh := rfl
@[simp] theorem setReg_regs (b : Block) (o : Nat) (v : Word) : (s.setReg b o v).regs = mapSet (regReset (regKey b o)) s.regs (regKey b o) v := rfl
@[simp] theorem setReg_pendT (b : Block) (o : Nat) (v : Word) : (s.setReg b o v).pendT = s.pendT := rfl
@[simp] theorem setReg_holdRd (b : Block) (o : Nat) (v : Word) : (s.setReg b o v).holdRd = s.holdRd := rfl
@[simp] theorem setReg_holdWr (b : Block) (o : Nat) (v : Word) : (s.setReg b o v).holdWr = s.holdWr := rfl
@[simp] theorem setReg_answer (b : Block) (o : Nat) (v : Word) : (s.setReg b o v).answer = s.answer := rfl
@[simp] theorem setReg_status (b : Block) (o : Nat) (v : Word) : (s.setReg b o v).status = s.status := rfl
@[simp] theorem setReg_counters (b : Block) (o : Nat) (v : Word) : (s.setReg b o v).counters = s.counters := rfl
@[simp] theorem setReg_host (b : Block) (o : Nat) (v : Word) : (s.setReg b o v).host = s.host := rfl
@[simp] theorem setReg_sent (b : Block) (o : Nat) (v : Word) : (s.setReg b o v).sent = s.sent := rfl
@[simp] theorem setReg_stalls (b : Block) (o : Nat) (v : Word) : (s.setReg b o v).stalls = s.stalls := rfl
@[simp] theorem setReg_churn (b : Block) (o : Nat) (v : Word) : (s.setReg b o v).churn = s.churn := rfl
@[simp] theorem setReg_tiles (b : Block) (o : Nat) (v : Word) : (s.setReg b o v).tiles = s.tiles := rfl
@[simp] theorem setReg_serving (b : Block) (o : Nat) (v : Word) : (s.setReg b o v).serving = s.serving := rfl
@[simp] theorem setReg_nextBatch (b : Block) (o : Nat) (v : Word) : (s.setReg b o v).nextBatch = s.nextBatch := rfl
@[simp] theorem setReg_mem (b : Block) (o : Nat) (v : Word) : (s.setReg b o v).mem = s.mem := rfl
@[simp] theorem setReg_fabric (b : Block) (o : Nat) (v : Word) : (s.setReg b o v).fabric = s.fabric := rfl
@[simp] theorem setReg_power (b : Block) (o : Nat) (v : Word) : (s.setReg b o v).power = s.power := rfl
@[simp] theorem setReg_ras (b : Block) (o : Nat) (v : Word) : (s.setReg b o v).ras = s.ras := rfl
@[simp] theorem setReg_sec (b : Block) (o : Nat) (v : Word) : (s.setReg b o v).sec = s.sec := rfl
@[simp] theorem setReg_mgt (b : Block) (o : Nat) (v : Word) : (s.setReg b o v).mgt = s.mgt := rfl

/-! ### setStat -/

@[simp] theorem setStat_pending (r : StatReg) (v : Status) : (s.setStat r v).pending = s.pending := rfl
@[simp] theorem setStat_now (r : StatReg) (v : Status) : (s.setStat r v).now = s.now := rfl
@[simp] theorem setStat_fresh (r : StatReg) (v : Status) : (s.setStat r v).fresh = s.fresh := rfl
@[simp] theorem setStat_regs (r : StatReg) (v : Status) : (s.setStat r v).regs = s.regs := rfl
@[simp] theorem setStat_pendT (r : StatReg) (v : Status) : (s.setStat r v).pendT = s.pendT := rfl
@[simp] theorem setStat_holdRd (r : StatReg) (v : Status) : (s.setStat r v).holdRd = s.holdRd := rfl
@[simp] theorem setStat_holdWr (r : StatReg) (v : Status) : (s.setStat r v).holdWr = s.holdWr := rfl
@[simp] theorem setStat_answer (r : StatReg) (v : Status) : (s.setStat r v).answer = s.answer := rfl
@[simp] theorem setStat_status (r : StatReg) (v : Status) : (s.setStat r v).status = mapSet Status.zero s.status r.code v := rfl
@[simp] theorem setStat_counters (r : StatReg) (v : Status) : (s.setStat r v).counters = s.counters := rfl
@[simp] theorem setStat_host (r : StatReg) (v : Status) : (s.setStat r v).host = s.host := rfl
@[simp] theorem setStat_sent (r : StatReg) (v : Status) : (s.setStat r v).sent = s.sent := rfl
@[simp] theorem setStat_stalls (r : StatReg) (v : Status) : (s.setStat r v).stalls = s.stalls := rfl
@[simp] theorem setStat_churn (r : StatReg) (v : Status) : (s.setStat r v).churn = s.churn := rfl
@[simp] theorem setStat_tiles (r : StatReg) (v : Status) : (s.setStat r v).tiles = s.tiles := rfl
@[simp] theorem setStat_serving (r : StatReg) (v : Status) : (s.setStat r v).serving = s.serving := rfl
@[simp] theorem setStat_nextBatch (r : StatReg) (v : Status) : (s.setStat r v).nextBatch = s.nextBatch := rfl
@[simp] theorem setStat_mem (r : StatReg) (v : Status) : (s.setStat r v).mem = s.mem := rfl
@[simp] theorem setStat_fabric (r : StatReg) (v : Status) : (s.setStat r v).fabric = s.fabric := rfl
@[simp] theorem setStat_power (r : StatReg) (v : Status) : (s.setStat r v).power = s.power := rfl
@[simp] theorem setStat_ras (r : StatReg) (v : Status) : (s.setStat r v).ras = s.ras := rfl
@[simp] theorem setStat_sec (r : StatReg) (v : Status) : (s.setStat r v).sec = s.sec := rfl
@[simp] theorem setStat_mgt (r : StatReg) (v : Status) : (s.setStat r v).mgt = s.mgt := rfl

/-! ### modHost -/

@[simp] theorem modHost_pending (f : Fn) (g : HostFn → HostFn) : (s.modHost f g).pending = s.pending := rfl
@[simp] theorem modHost_now (f : Fn) (g : HostFn → HostFn) : (s.modHost f g).now = s.now := rfl
@[simp] theorem modHost_fresh (f : Fn) (g : HostFn → HostFn) : (s.modHost f g).fresh = s.fresh := rfl
@[simp] theorem modHost_regs (f : Fn) (g : HostFn → HostFn) : (s.modHost f g).regs = s.regs := rfl
@[simp] theorem modHost_pendT (f : Fn) (g : HostFn → HostFn) : (s.modHost f g).pendT = s.pendT := rfl
@[simp] theorem modHost_holdRd (f : Fn) (g : HostFn → HostFn) : (s.modHost f g).holdRd = s.holdRd := rfl
@[simp] theorem modHost_holdWr (f : Fn) (g : HostFn → HostFn) : (s.modHost f g).holdWr = s.holdWr := rfl
@[simp] theorem modHost_answer (f : Fn) (g : HostFn → HostFn) : (s.modHost f g).answer = s.answer := rfl
@[simp] theorem modHost_status (f : Fn) (g : HostFn → HostFn) : (s.modHost f g).status = s.status := rfl
@[simp] theorem modHost_counters (f : Fn) (g : HostFn → HostFn) : (s.modHost f g).counters = s.counters := rfl
@[simp] theorem modHost_host (f : Fn) (g : HostFn → HostFn) : (s.modHost f g).host = s.host.set f (g s.host[f]) := rfl
@[simp] theorem modHost_sent (f : Fn) (g : HostFn → HostFn) : (s.modHost f g).sent = s.sent := rfl
@[simp] theorem modHost_stalls (f : Fn) (g : HostFn → HostFn) : (s.modHost f g).stalls = s.stalls := rfl
@[simp] theorem modHost_churn (f : Fn) (g : HostFn → HostFn) : (s.modHost f g).churn = s.churn := rfl
@[simp] theorem modHost_tiles (f : Fn) (g : HostFn → HostFn) : (s.modHost f g).tiles = s.tiles := rfl
@[simp] theorem modHost_serving (f : Fn) (g : HostFn → HostFn) : (s.modHost f g).serving = s.serving := rfl
@[simp] theorem modHost_nextBatch (f : Fn) (g : HostFn → HostFn) : (s.modHost f g).nextBatch = s.nextBatch := rfl
@[simp] theorem modHost_mem (f : Fn) (g : HostFn → HostFn) : (s.modHost f g).mem = s.mem := rfl
@[simp] theorem modHost_fabric (f : Fn) (g : HostFn → HostFn) : (s.modHost f g).fabric = s.fabric := rfl
@[simp] theorem modHost_power (f : Fn) (g : HostFn → HostFn) : (s.modHost f g).power = s.power := rfl
@[simp] theorem modHost_ras (f : Fn) (g : HostFn → HostFn) : (s.modHost f g).ras = s.ras := rfl
@[simp] theorem modHost_sec (f : Fn) (g : HostFn → HostFn) : (s.modHost f g).sec = s.sec := rfl
@[simp] theorem modHost_mgt (f : Fn) (g : HostFn → HostFn) : (s.modHost f g).mgt = s.mgt := rfl

/-! ### modRing -/

@[simp] theorem modRing_pending (f : Fn) (r : RingId) (g : Ring → Ring) : (s.modRing f r g).pending = s.pending := rfl
@[simp] theorem modRing_now (f : Fn) (r : RingId) (g : Ring → Ring) : (s.modRing f r g).now = s.now := rfl
@[simp] theorem modRing_fresh (f : Fn) (r : RingId) (g : Ring → Ring) : (s.modRing f r g).fresh = s.fresh := rfl
@[simp] theorem modRing_regs (f : Fn) (r : RingId) (g : Ring → Ring) : (s.modRing f r g).regs = s.regs := rfl
@[simp] theorem modRing_pendT (f : Fn) (r : RingId) (g : Ring → Ring) : (s.modRing f r g).pendT = s.pendT := rfl
@[simp] theorem modRing_holdRd (f : Fn) (r : RingId) (g : Ring → Ring) : (s.modRing f r g).holdRd = s.holdRd := rfl
@[simp] theorem modRing_holdWr (f : Fn) (r : RingId) (g : Ring → Ring) : (s.modRing f r g).holdWr = s.holdWr := rfl
@[simp] theorem modRing_answer (f : Fn) (r : RingId) (g : Ring → Ring) : (s.modRing f r g).answer = s.answer := rfl
@[simp] theorem modRing_status (f : Fn) (r : RingId) (g : Ring → Ring) : (s.modRing f r g).status = s.status := rfl
@[simp] theorem modRing_counters (f : Fn) (r : RingId) (g : Ring → Ring) : (s.modRing f r g).counters = s.counters := rfl
@[simp] theorem modRing_host (f : Fn) (r : RingId) (g : Ring → Ring) : (s.modRing f r g).host = s.host.set f { s.host[f] with rings := s.host[f].rings.set r (g s.host[f].rings[r]) } := rfl
@[simp] theorem modRing_sent (f : Fn) (r : RingId) (g : Ring → Ring) : (s.modRing f r g).sent = s.sent := rfl
@[simp] theorem modRing_stalls (f : Fn) (r : RingId) (g : Ring → Ring) : (s.modRing f r g).stalls = s.stalls := rfl
@[simp] theorem modRing_churn (f : Fn) (r : RingId) (g : Ring → Ring) : (s.modRing f r g).churn = s.churn := rfl
@[simp] theorem modRing_tiles (f : Fn) (r : RingId) (g : Ring → Ring) : (s.modRing f r g).tiles = s.tiles := rfl
@[simp] theorem modRing_serving (f : Fn) (r : RingId) (g : Ring → Ring) : (s.modRing f r g).serving = s.serving := rfl
@[simp] theorem modRing_nextBatch (f : Fn) (r : RingId) (g : Ring → Ring) : (s.modRing f r g).nextBatch = s.nextBatch := rfl
@[simp] theorem modRing_mem (f : Fn) (r : RingId) (g : Ring → Ring) : (s.modRing f r g).mem = s.mem := rfl
@[simp] theorem modRing_fabric (f : Fn) (r : RingId) (g : Ring → Ring) : (s.modRing f r g).fabric = s.fabric := rfl
@[simp] theorem modRing_power (f : Fn) (r : RingId) (g : Ring → Ring) : (s.modRing f r g).power = s.power := rfl
@[simp] theorem modRing_ras (f : Fn) (r : RingId) (g : Ring → Ring) : (s.modRing f r g).ras = s.ras := rfl
@[simp] theorem modRing_sec (f : Fn) (r : RingId) (g : Ring → Ring) : (s.modRing f r g).sec = s.sec := rfl
@[simp] theorem modRing_mgt (f : Fn) (r : RingId) (g : Ring → Ring) : (s.modRing f r g).mgt = s.mgt := rfl

/-! ### modTile -/

@[simp] theorem modTile_pending (t : TileId) (g : Tile → Tile) : (s.modTile t g).pending = s.pending := rfl
@[simp] theorem modTile_now (t : TileId) (g : Tile → Tile) : (s.modTile t g).now = s.now := rfl
@[simp] theorem modTile_fresh (t : TileId) (g : Tile → Tile) : (s.modTile t g).fresh = s.fresh := rfl
@[simp] theorem modTile_regs (t : TileId) (g : Tile → Tile) : (s.modTile t g).regs = s.regs := rfl
@[simp] theorem modTile_pendT (t : TileId) (g : Tile → Tile) : (s.modTile t g).pendT = s.pendT := rfl
@[simp] theorem modTile_holdRd (t : TileId) (g : Tile → Tile) : (s.modTile t g).holdRd = s.holdRd := rfl
@[simp] theorem modTile_holdWr (t : TileId) (g : Tile → Tile) : (s.modTile t g).holdWr = s.holdWr := rfl
@[simp] theorem modTile_answer (t : TileId) (g : Tile → Tile) : (s.modTile t g).answer = s.answer := rfl
@[simp] theorem modTile_status (t : TileId) (g : Tile → Tile) : (s.modTile t g).status = s.status := rfl
@[simp] theorem modTile_counters (t : TileId) (g : Tile → Tile) : (s.modTile t g).counters = s.counters := rfl
@[simp] theorem modTile_host (t : TileId) (g : Tile → Tile) : (s.modTile t g).host = s.host := rfl
@[simp] theorem modTile_sent (t : TileId) (g : Tile → Tile) : (s.modTile t g).sent = s.sent := rfl
@[simp] theorem modTile_stalls (t : TileId) (g : Tile → Tile) : (s.modTile t g).stalls = s.stalls := rfl
@[simp] theorem modTile_churn (t : TileId) (g : Tile → Tile) : (s.modTile t g).churn = s.churn := rfl
@[simp] theorem modTile_tiles (t : TileId) (g : Tile → Tile) : (s.modTile t g).tiles = s.tiles.set t (g s.tiles[t]) := rfl
@[simp] theorem modTile_serving (t : TileId) (g : Tile → Tile) : (s.modTile t g).serving = s.serving := rfl
@[simp] theorem modTile_nextBatch (t : TileId) (g : Tile → Tile) : (s.modTile t g).nextBatch = s.nextBatch := rfl
@[simp] theorem modTile_mem (t : TileId) (g : Tile → Tile) : (s.modTile t g).mem = s.mem := rfl
@[simp] theorem modTile_fabric (t : TileId) (g : Tile → Tile) : (s.modTile t g).fabric = s.fabric := rfl
@[simp] theorem modTile_power (t : TileId) (g : Tile → Tile) : (s.modTile t g).power = s.power := rfl
@[simp] theorem modTile_ras (t : TileId) (g : Tile → Tile) : (s.modTile t g).ras = s.ras := rfl
@[simp] theorem modTile_sec (t : TileId) (g : Tile → Tile) : (s.modTile t g).sec = s.sec := rfl
@[simp] theorem modTile_mgt (t : TileId) (g : Tile → Tile) : (s.modTile t g).mgt = s.mgt := rfl

/-! ### modStall -/

@[simp] theorem modStall_pending (n : StallId) (g : StallSt → StallSt) : (s.modStall n g).pending = s.pending := rfl
@[simp] theorem modStall_now (n : StallId) (g : StallSt → StallSt) : (s.modStall n g).now = s.now := rfl
@[simp] theorem modStall_fresh (n : StallId) (g : StallSt → StallSt) : (s.modStall n g).fresh = s.fresh := rfl
@[simp] theorem modStall_regs (n : StallId) (g : StallSt → StallSt) : (s.modStall n g).regs = s.regs := rfl
@[simp] theorem modStall_pendT (n : StallId) (g : StallSt → StallSt) : (s.modStall n g).pendT = s.pendT := rfl
@[simp] theorem modStall_holdRd (n : StallId) (g : StallSt → StallSt) : (s.modStall n g).holdRd = s.holdRd := rfl
@[simp] theorem modStall_holdWr (n : StallId) (g : StallSt → StallSt) : (s.modStall n g).holdWr = s.holdWr := rfl
@[simp] theorem modStall_answer (n : StallId) (g : StallSt → StallSt) : (s.modStall n g).answer = s.answer := rfl
@[simp] theorem modStall_status (n : StallId) (g : StallSt → StallSt) : (s.modStall n g).status = s.status := rfl
@[simp] theorem modStall_counters (n : StallId) (g : StallSt → StallSt) : (s.modStall n g).counters = s.counters := rfl
@[simp] theorem modStall_host (n : StallId) (g : StallSt → StallSt) : (s.modStall n g).host = s.host := rfl
@[simp] theorem modStall_sent (n : StallId) (g : StallSt → StallSt) : (s.modStall n g).sent = s.sent := rfl
@[simp] theorem modStall_stalls (n : StallId) (g : StallSt → StallSt) : (s.modStall n g).stalls = s.stalls.set n (g s.stalls[n]) := rfl
@[simp] theorem modStall_churn (n : StallId) (g : StallSt → StallSt) : (s.modStall n g).churn = s.churn := rfl
@[simp] theorem modStall_tiles (n : StallId) (g : StallSt → StallSt) : (s.modStall n g).tiles = s.tiles := rfl
@[simp] theorem modStall_serving (n : StallId) (g : StallSt → StallSt) : (s.modStall n g).serving = s.serving := rfl
@[simp] theorem modStall_nextBatch (n : StallId) (g : StallSt → StallSt) : (s.modStall n g).nextBatch = s.nextBatch := rfl
@[simp] theorem modStall_mem (n : StallId) (g : StallSt → StallSt) : (s.modStall n g).mem = s.mem := rfl
@[simp] theorem modStall_fabric (n : StallId) (g : StallSt → StallSt) : (s.modStall n g).fabric = s.fabric := rfl
@[simp] theorem modStall_power (n : StallId) (g : StallSt → StallSt) : (s.modStall n g).power = s.power := rfl
@[simp] theorem modStall_ras (n : StallId) (g : StallSt → StallSt) : (s.modStall n g).ras = s.ras := rfl
@[simp] theorem modStall_sec (n : StallId) (g : StallSt → StallSt) : (s.modStall n g).sec = s.sec := rfl
@[simp] theorem modStall_mgt (n : StallId) (g : StallSt → StallSt) : (s.modStall n g).mgt = s.mgt := rfl

/-! ### modSrv -/

@[simp] theorem modSrv_pending (n : StallId) (g : Serving → Serving) : (s.modSrv n g).pending = s.pending := rfl
@[simp] theorem modSrv_now (n : StallId) (g : Serving → Serving) : (s.modSrv n g).now = s.now := rfl
@[simp] theorem modSrv_fresh (n : StallId) (g : Serving → Serving) : (s.modSrv n g).fresh = s.fresh := rfl
@[simp] theorem modSrv_regs (n : StallId) (g : Serving → Serving) : (s.modSrv n g).regs = s.regs := rfl
@[simp] theorem modSrv_pendT (n : StallId) (g : Serving → Serving) : (s.modSrv n g).pendT = s.pendT := rfl
@[simp] theorem modSrv_holdRd (n : StallId) (g : Serving → Serving) : (s.modSrv n g).holdRd = s.holdRd := rfl
@[simp] theorem modSrv_holdWr (n : StallId) (g : Serving → Serving) : (s.modSrv n g).holdWr = s.holdWr := rfl
@[simp] theorem modSrv_answer (n : StallId) (g : Serving → Serving) : (s.modSrv n g).answer = s.answer := rfl
@[simp] theorem modSrv_status (n : StallId) (g : Serving → Serving) : (s.modSrv n g).status = s.status := rfl
@[simp] theorem modSrv_counters (n : StallId) (g : Serving → Serving) : (s.modSrv n g).counters = s.counters := rfl
@[simp] theorem modSrv_host (n : StallId) (g : Serving → Serving) : (s.modSrv n g).host = s.host := rfl
@[simp] theorem modSrv_sent (n : StallId) (g : Serving → Serving) : (s.modSrv n g).sent = s.sent := rfl
@[simp] theorem modSrv_stalls (n : StallId) (g : Serving → Serving) : (s.modSrv n g).stalls = s.stalls := rfl
@[simp] theorem modSrv_churn (n : StallId) (g : Serving → Serving) : (s.modSrv n g).churn = s.churn := rfl
@[simp] theorem modSrv_tiles (n : StallId) (g : Serving → Serving) : (s.modSrv n g).tiles = s.tiles := rfl
@[simp] theorem modSrv_serving (n : StallId) (g : Serving → Serving) : (s.modSrv n g).serving = s.serving.set n (g s.serving[n]) := rfl
@[simp] theorem modSrv_nextBatch (n : StallId) (g : Serving → Serving) : (s.modSrv n g).nextBatch = s.nextBatch := rfl
@[simp] theorem modSrv_mem (n : StallId) (g : Serving → Serving) : (s.modSrv n g).mem = s.mem := rfl
@[simp] theorem modSrv_fabric (n : StallId) (g : Serving → Serving) : (s.modSrv n g).fabric = s.fabric := rfl
@[simp] theorem modSrv_power (n : StallId) (g : Serving → Serving) : (s.modSrv n g).power = s.power := rfl
@[simp] theorem modSrv_ras (n : StallId) (g : Serving → Serving) : (s.modSrv n g).ras = s.ras := rfl
@[simp] theorem modSrv_sec (n : StallId) (g : Serving → Serving) : (s.modSrv n g).sec = s.sec := rfl
@[simp] theorem modSrv_mgt (n : StallId) (g : Serving → Serving) : (s.modSrv n g).mgt = s.mgt := rfl

/-! ### modMem -/

@[simp] theorem modMem_pending (g : MemUnit → MemUnit) : (s.modMem g).pending = s.pending := rfl
@[simp] theorem modMem_now (g : MemUnit → MemUnit) : (s.modMem g).now = s.now := rfl
@[simp] theorem modMem_fresh (g : MemUnit → MemUnit) : (s.modMem g).fresh = s.fresh := rfl
@[simp] theorem modMem_regs (g : MemUnit → MemUnit) : (s.modMem g).regs = s.regs := rfl
@[simp] theorem modMem_pendT (g : MemUnit → MemUnit) : (s.modMem g).pendT = s.pendT := rfl
@[simp] theorem modMem_holdRd (g : MemUnit → MemUnit) : (s.modMem g).holdRd = s.holdRd := rfl
@[simp] theorem modMem_holdWr (g : MemUnit → MemUnit) : (s.modMem g).holdWr = s.holdWr := rfl
@[simp] theorem modMem_answer (g : MemUnit → MemUnit) : (s.modMem g).answer = s.answer := rfl
@[simp] theorem modMem_status (g : MemUnit → MemUnit) : (s.modMem g).status = s.status := rfl
@[simp] theorem modMem_counters (g : MemUnit → MemUnit) : (s.modMem g).counters = s.counters := rfl
@[simp] theorem modMem_host (g : MemUnit → MemUnit) : (s.modMem g).host = s.host := rfl
@[simp] theorem modMem_sent (g : MemUnit → MemUnit) : (s.modMem g).sent = s.sent := rfl
@[simp] theorem modMem_stalls (g : MemUnit → MemUnit) : (s.modMem g).stalls = s.stalls := rfl
@[simp] theorem modMem_churn (g : MemUnit → MemUnit) : (s.modMem g).churn = s.churn := rfl
@[simp] theorem modMem_tiles (g : MemUnit → MemUnit) : (s.modMem g).tiles = s.tiles := rfl
@[simp] theorem modMem_serving (g : MemUnit → MemUnit) : (s.modMem g).serving = s.serving := rfl
@[simp] theorem modMem_nextBatch (g : MemUnit → MemUnit) : (s.modMem g).nextBatch = s.nextBatch := rfl
@[simp] theorem modMem_mem (g : MemUnit → MemUnit) : (s.modMem g).mem = g s.mem := rfl
@[simp] theorem modMem_fabric (g : MemUnit → MemUnit) : (s.modMem g).fabric = s.fabric := rfl
@[simp] theorem modMem_power (g : MemUnit → MemUnit) : (s.modMem g).power = s.power := rfl
@[simp] theorem modMem_ras (g : MemUnit → MemUnit) : (s.modMem g).ras = s.ras := rfl
@[simp] theorem modMem_sec (g : MemUnit → MemUnit) : (s.modMem g).sec = s.sec := rfl
@[simp] theorem modMem_mgt (g : MemUnit → MemUnit) : (s.modMem g).mgt = s.mgt := rfl

/-! ### modFnMem -/

@[simp] theorem modFnMem_pending (f : Fn) (g : FnMem → FnMem) : (s.modFnMem f g).pending = s.pending := rfl
@[simp] theorem modFnMem_now (f : Fn) (g : FnMem → FnMem) : (s.modFnMem f g).now = s.now := rfl
@[simp] theorem modFnMem_fresh (f : Fn) (g : FnMem → FnMem) : (s.modFnMem f g).fresh = s.fresh := rfl
@[simp] theorem modFnMem_regs (f : Fn) (g : FnMem → FnMem) : (s.modFnMem f g).regs = s.regs := rfl
@[simp] theorem modFnMem_pendT (f : Fn) (g : FnMem → FnMem) : (s.modFnMem f g).pendT = s.pendT := rfl
@[simp] theorem modFnMem_holdRd (f : Fn) (g : FnMem → FnMem) : (s.modFnMem f g).holdRd = s.holdRd := rfl
@[simp] theorem modFnMem_holdWr (f : Fn) (g : FnMem → FnMem) : (s.modFnMem f g).holdWr = s.holdWr := rfl
@[simp] theorem modFnMem_answer (f : Fn) (g : FnMem → FnMem) : (s.modFnMem f g).answer = s.answer := rfl
@[simp] theorem modFnMem_status (f : Fn) (g : FnMem → FnMem) : (s.modFnMem f g).status = s.status := rfl
@[simp] theorem modFnMem_counters (f : Fn) (g : FnMem → FnMem) : (s.modFnMem f g).counters = s.counters := rfl
@[simp] theorem modFnMem_host (f : Fn) (g : FnMem → FnMem) : (s.modFnMem f g).host = s.host := rfl
@[simp] theorem modFnMem_sent (f : Fn) (g : FnMem → FnMem) : (s.modFnMem f g).sent = s.sent := rfl
@[simp] theorem modFnMem_stalls (f : Fn) (g : FnMem → FnMem) : (s.modFnMem f g).stalls = s.stalls := rfl
@[simp] theorem modFnMem_churn (f : Fn) (g : FnMem → FnMem) : (s.modFnMem f g).churn = s.churn := rfl
@[simp] theorem modFnMem_tiles (f : Fn) (g : FnMem → FnMem) : (s.modFnMem f g).tiles = s.tiles := rfl
@[simp] theorem modFnMem_serving (f : Fn) (g : FnMem → FnMem) : (s.modFnMem f g).serving = s.serving := rfl
@[simp] theorem modFnMem_nextBatch (f : Fn) (g : FnMem → FnMem) : (s.modFnMem f g).nextBatch = s.nextBatch := rfl
@[simp] theorem modFnMem_mem (f : Fn) (g : FnMem → FnMem) : (s.modFnMem f g).mem = { s.mem with fns := s.mem.fns.set f (g s.mem.fns[f]) } := rfl
@[simp] theorem modFnMem_fabric (f : Fn) (g : FnMem → FnMem) : (s.modFnMem f g).fabric = s.fabric := rfl
@[simp] theorem modFnMem_power (f : Fn) (g : FnMem → FnMem) : (s.modFnMem f g).power = s.power := rfl
@[simp] theorem modFnMem_ras (f : Fn) (g : FnMem → FnMem) : (s.modFnMem f g).ras = s.ras := rfl
@[simp] theorem modFnMem_sec (f : Fn) (g : FnMem → FnMem) : (s.modFnMem f g).sec = s.sec := rfl
@[simp] theorem modFnMem_mgt (f : Fn) (g : FnMem → FnMem) : (s.modFnMem f g).mgt = s.mgt := rfl

/-! ### modChurn -/

@[simp] theorem modChurn_pending (g : Churn → Churn) : (s.modChurn g).pending = s.pending := rfl
@[simp] theorem modChurn_now (g : Churn → Churn) : (s.modChurn g).now = s.now := rfl
@[simp] theorem modChurn_fresh (g : Churn → Churn) : (s.modChurn g).fresh = s.fresh := rfl
@[simp] theorem modChurn_regs (g : Churn → Churn) : (s.modChurn g).regs = s.regs := rfl
@[simp] theorem modChurn_pendT (g : Churn → Churn) : (s.modChurn g).pendT = s.pendT := rfl
@[simp] theorem modChurn_holdRd (g : Churn → Churn) : (s.modChurn g).holdRd = s.holdRd := rfl
@[simp] theorem modChurn_holdWr (g : Churn → Churn) : (s.modChurn g).holdWr = s.holdWr := rfl
@[simp] theorem modChurn_answer (g : Churn → Churn) : (s.modChurn g).answer = s.answer := rfl
@[simp] theorem modChurn_status (g : Churn → Churn) : (s.modChurn g).status = s.status := rfl
@[simp] theorem modChurn_counters (g : Churn → Churn) : (s.modChurn g).counters = s.counters := rfl
@[simp] theorem modChurn_host (g : Churn → Churn) : (s.modChurn g).host = s.host := rfl
@[simp] theorem modChurn_sent (g : Churn → Churn) : (s.modChurn g).sent = s.sent := rfl
@[simp] theorem modChurn_stalls (g : Churn → Churn) : (s.modChurn g).stalls = s.stalls := rfl
@[simp] theorem modChurn_churn (g : Churn → Churn) : (s.modChurn g).churn = g s.churn := rfl
@[simp] theorem modChurn_tiles (g : Churn → Churn) : (s.modChurn g).tiles = s.tiles := rfl
@[simp] theorem modChurn_serving (g : Churn → Churn) : (s.modChurn g).serving = s.serving := rfl
@[simp] theorem modChurn_nextBatch (g : Churn → Churn) : (s.modChurn g).nextBatch = s.nextBatch := rfl
@[simp] theorem modChurn_mem (g : Churn → Churn) : (s.modChurn g).mem = s.mem := rfl
@[simp] theorem modChurn_fabric (g : Churn → Churn) : (s.modChurn g).fabric = s.fabric := rfl
@[simp] theorem modChurn_power (g : Churn → Churn) : (s.modChurn g).power = s.power := rfl
@[simp] theorem modChurn_ras (g : Churn → Churn) : (s.modChurn g).ras = s.ras := rfl
@[simp] theorem modChurn_sec (g : Churn → Churn) : (s.modChurn g).sec = s.sec := rfl
@[simp] theorem modChurn_mgt (g : Churn → Churn) : (s.modChurn g).mgt = s.mgt := rfl

/-! ### modFabric -/

@[simp] theorem modFabric_pending (g : Fabric → Fabric) : (s.modFabric g).pending = s.pending := rfl
@[simp] theorem modFabric_now (g : Fabric → Fabric) : (s.modFabric g).now = s.now := rfl
@[simp] theorem modFabric_fresh (g : Fabric → Fabric) : (s.modFabric g).fresh = s.fresh := rfl
@[simp] theorem modFabric_regs (g : Fabric → Fabric) : (s.modFabric g).regs = s.regs := rfl
@[simp] theorem modFabric_pendT (g : Fabric → Fabric) : (s.modFabric g).pendT = s.pendT := rfl
@[simp] theorem modFabric_holdRd (g : Fabric → Fabric) : (s.modFabric g).holdRd = s.holdRd := rfl
@[simp] theorem modFabric_holdWr (g : Fabric → Fabric) : (s.modFabric g).holdWr = s.holdWr := rfl
@[simp] theorem modFabric_answer (g : Fabric → Fabric) : (s.modFabric g).answer = s.answer := rfl
@[simp] theorem modFabric_status (g : Fabric → Fabric) : (s.modFabric g).status = s.status := rfl
@[simp] theorem modFabric_counters (g : Fabric → Fabric) : (s.modFabric g).counters = s.counters := rfl
@[simp] theorem modFabric_host (g : Fabric → Fabric) : (s.modFabric g).host = s.host := rfl
@[simp] theorem modFabric_sent (g : Fabric → Fabric) : (s.modFabric g).sent = s.sent := rfl
@[simp] theorem modFabric_stalls (g : Fabric → Fabric) : (s.modFabric g).stalls = s.stalls := rfl
@[simp] theorem modFabric_churn (g : Fabric → Fabric) : (s.modFabric g).churn = s.churn := rfl
@[simp] theorem modFabric_tiles (g : Fabric → Fabric) : (s.modFabric g).tiles = s.tiles := rfl
@[simp] theorem modFabric_serving (g : Fabric → Fabric) : (s.modFabric g).serving = s.serving := rfl
@[simp] theorem modFabric_nextBatch (g : Fabric → Fabric) : (s.modFabric g).nextBatch = s.nextBatch := rfl
@[simp] theorem modFabric_mem (g : Fabric → Fabric) : (s.modFabric g).mem = s.mem := rfl
@[simp] theorem modFabric_fabric (g : Fabric → Fabric) : (s.modFabric g).fabric = g s.fabric := rfl
@[simp] theorem modFabric_power (g : Fabric → Fabric) : (s.modFabric g).power = s.power := rfl
@[simp] theorem modFabric_ras (g : Fabric → Fabric) : (s.modFabric g).ras = s.ras := rfl
@[simp] theorem modFabric_sec (g : Fabric → Fabric) : (s.modFabric g).sec = s.sec := rfl
@[simp] theorem modFabric_mgt (g : Fabric → Fabric) : (s.modFabric g).mgt = s.mgt := rfl

/-! ### modPower -/

@[simp] theorem modPower_pending (g : Power → Power) : (s.modPower g).pending = s.pending := rfl
@[simp] theorem modPower_now (g : Power → Power) : (s.modPower g).now = s.now := rfl
@[simp] theorem modPower_fresh (g : Power → Power) : (s.modPower g).fresh = s.fresh := rfl
@[simp] theorem modPower_regs (g : Power → Power) : (s.modPower g).regs = s.regs := rfl
@[simp] theorem modPower_pendT (g : Power → Power) : (s.modPower g).pendT = s.pendT := rfl
@[simp] theorem modPower_holdRd (g : Power → Power) : (s.modPower g).holdRd = s.holdRd := rfl
@[simp] theorem modPower_holdWr (g : Power → Power) : (s.modPower g).holdWr = s.holdWr := rfl
@[simp] theorem modPower_answer (g : Power → Power) : (s.modPower g).answer = s.answer := rfl
@[simp] theorem modPower_status (g : Power → Power) : (s.modPower g).status = s.status := rfl
@[simp] theorem modPower_counters (g : Power → Power) : (s.modPower g).counters = s.counters := rfl
@[simp] theorem modPower_host (g : Power → Power) : (s.modPower g).host = s.host := rfl
@[simp] theorem modPower_sent (g : Power → Power) : (s.modPower g).sent = s.sent := rfl
@[simp] theorem modPower_stalls (g : Power → Power) : (s.modPower g).stalls = s.stalls := rfl
@[simp] theorem modPower_churn (g : Power → Power) : (s.modPower g).churn = s.churn := rfl
@[simp] theorem modPower_tiles (g : Power → Power) : (s.modPower g).tiles = s.tiles := rfl
@[simp] theorem modPower_serving (g : Power → Power) : (s.modPower g).serving = s.serving := rfl
@[simp] theorem modPower_nextBatch (g : Power → Power) : (s.modPower g).nextBatch = s.nextBatch := rfl
@[simp] theorem modPower_mem (g : Power → Power) : (s.modPower g).mem = s.mem := rfl
@[simp] theorem modPower_fabric (g : Power → Power) : (s.modPower g).fabric = s.fabric := rfl
@[simp] theorem modPower_power (g : Power → Power) : (s.modPower g).power = g s.power := rfl
@[simp] theorem modPower_ras (g : Power → Power) : (s.modPower g).ras = s.ras := rfl
@[simp] theorem modPower_sec (g : Power → Power) : (s.modPower g).sec = s.sec := rfl
@[simp] theorem modPower_mgt (g : Power → Power) : (s.modPower g).mgt = s.mgt := rfl

/-! ### modRas -/

@[simp] theorem modRas_pending (g : Ras → Ras) : (s.modRas g).pending = s.pending := rfl
@[simp] theorem modRas_now (g : Ras → Ras) : (s.modRas g).now = s.now := rfl
@[simp] theorem modRas_fresh (g : Ras → Ras) : (s.modRas g).fresh = s.fresh := rfl
@[simp] theorem modRas_regs (g : Ras → Ras) : (s.modRas g).regs = s.regs := rfl
@[simp] theorem modRas_pendT (g : Ras → Ras) : (s.modRas g).pendT = s.pendT := rfl
@[simp] theorem modRas_holdRd (g : Ras → Ras) : (s.modRas g).holdRd = s.holdRd := rfl
@[simp] theorem modRas_holdWr (g : Ras → Ras) : (s.modRas g).holdWr = s.holdWr := rfl
@[simp] theorem modRas_answer (g : Ras → Ras) : (s.modRas g).answer = s.answer := rfl
@[simp] theorem modRas_status (g : Ras → Ras) : (s.modRas g).status = s.status := rfl
@[simp] theorem modRas_counters (g : Ras → Ras) : (s.modRas g).counters = s.counters := rfl
@[simp] theorem modRas_host (g : Ras → Ras) : (s.modRas g).host = s.host := rfl
@[simp] theorem modRas_sent (g : Ras → Ras) : (s.modRas g).sent = s.sent := rfl
@[simp] theorem modRas_stalls (g : Ras → Ras) : (s.modRas g).stalls = s.stalls := rfl
@[simp] theorem modRas_churn (g : Ras → Ras) : (s.modRas g).churn = s.churn := rfl
@[simp] theorem modRas_tiles (g : Ras → Ras) : (s.modRas g).tiles = s.tiles := rfl
@[simp] theorem modRas_serving (g : Ras → Ras) : (s.modRas g).serving = s.serving := rfl
@[simp] theorem modRas_nextBatch (g : Ras → Ras) : (s.modRas g).nextBatch = s.nextBatch := rfl
@[simp] theorem modRas_mem (g : Ras → Ras) : (s.modRas g).mem = s.mem := rfl
@[simp] theorem modRas_fabric (g : Ras → Ras) : (s.modRas g).fabric = s.fabric := rfl
@[simp] theorem modRas_power (g : Ras → Ras) : (s.modRas g).power = s.power := rfl
@[simp] theorem modRas_ras (g : Ras → Ras) : (s.modRas g).ras = g s.ras := rfl
@[simp] theorem modRas_sec (g : Ras → Ras) : (s.modRas g).sec = s.sec := rfl
@[simp] theorem modRas_mgt (g : Ras → Ras) : (s.modRas g).mgt = s.mgt := rfl

/-! ### modSec -/

@[simp] theorem modSec_pending (g : Sec → Sec) : (s.modSec g).pending = s.pending := rfl
@[simp] theorem modSec_now (g : Sec → Sec) : (s.modSec g).now = s.now := rfl
@[simp] theorem modSec_fresh (g : Sec → Sec) : (s.modSec g).fresh = s.fresh := rfl
@[simp] theorem modSec_regs (g : Sec → Sec) : (s.modSec g).regs = s.regs := rfl
@[simp] theorem modSec_pendT (g : Sec → Sec) : (s.modSec g).pendT = s.pendT := rfl
@[simp] theorem modSec_holdRd (g : Sec → Sec) : (s.modSec g).holdRd = s.holdRd := rfl
@[simp] theorem modSec_holdWr (g : Sec → Sec) : (s.modSec g).holdWr = s.holdWr := rfl
@[simp] theorem modSec_answer (g : Sec → Sec) : (s.modSec g).answer = s.answer := rfl
@[simp] theorem modSec_status (g : Sec → Sec) : (s.modSec g).status = s.status := rfl
@[simp] theorem modSec_counters (g : Sec → Sec) : (s.modSec g).counters = s.counters := rfl
@[simp] theorem modSec_host (g : Sec → Sec) : (s.modSec g).host = s.host := rfl
@[simp] theorem modSec_sent (g : Sec → Sec) : (s.modSec g).sent = s.sent := rfl
@[simp] theorem modSec_stalls (g : Sec → Sec) : (s.modSec g).stalls = s.stalls := rfl
@[simp] theorem modSec_churn (g : Sec → Sec) : (s.modSec g).churn = s.churn := rfl
@[simp] theorem modSec_tiles (g : Sec → Sec) : (s.modSec g).tiles = s.tiles := rfl
@[simp] theorem modSec_serving (g : Sec → Sec) : (s.modSec g).serving = s.serving := rfl
@[simp] theorem modSec_nextBatch (g : Sec → Sec) : (s.modSec g).nextBatch = s.nextBatch := rfl
@[simp] theorem modSec_mem (g : Sec → Sec) : (s.modSec g).mem = s.mem := rfl
@[simp] theorem modSec_fabric (g : Sec → Sec) : (s.modSec g).fabric = s.fabric := rfl
@[simp] theorem modSec_power (g : Sec → Sec) : (s.modSec g).power = s.power := rfl
@[simp] theorem modSec_ras (g : Sec → Sec) : (s.modSec g).ras = s.ras := rfl
@[simp] theorem modSec_sec (g : Sec → Sec) : (s.modSec g).sec = g s.sec := rfl
@[simp] theorem modSec_mgt (g : Sec → Sec) : (s.modSec g).mgt = s.mgt := rfl

/-! ### modMgt -/

@[simp] theorem modMgt_pending (g : Mgt → Mgt) : (s.modMgt g).pending = s.pending := rfl
@[simp] theorem modMgt_now (g : Mgt → Mgt) : (s.modMgt g).now = s.now := rfl
@[simp] theorem modMgt_fresh (g : Mgt → Mgt) : (s.modMgt g).fresh = s.fresh := rfl
@[simp] theorem modMgt_regs (g : Mgt → Mgt) : (s.modMgt g).regs = s.regs := rfl
@[simp] theorem modMgt_pendT (g : Mgt → Mgt) : (s.modMgt g).pendT = s.pendT := rfl
@[simp] theorem modMgt_holdRd (g : Mgt → Mgt) : (s.modMgt g).holdRd = s.holdRd := rfl
@[simp] theorem modMgt_holdWr (g : Mgt → Mgt) : (s.modMgt g).holdWr = s.holdWr := rfl
@[simp] theorem modMgt_answer (g : Mgt → Mgt) : (s.modMgt g).answer = s.answer := rfl
@[simp] theorem modMgt_status (g : Mgt → Mgt) : (s.modMgt g).status = s.status := rfl
@[simp] theorem modMgt_counters (g : Mgt → Mgt) : (s.modMgt g).counters = s.counters := rfl
@[simp] theorem modMgt_host (g : Mgt → Mgt) : (s.modMgt g).host = s.host := rfl
@[simp] theorem modMgt_sent (g : Mgt → Mgt) : (s.modMgt g).sent = s.sent := rfl
@[simp] theorem modMgt_stalls (g : Mgt → Mgt) : (s.modMgt g).stalls = s.stalls := rfl
@[simp] theorem modMgt_churn (g : Mgt → Mgt) : (s.modMgt g).churn = s.churn := rfl
@[simp] theorem modMgt_tiles (g : Mgt → Mgt) : (s.modMgt g).tiles = s.tiles := rfl
@[simp] theorem modMgt_serving (g : Mgt → Mgt) : (s.modMgt g).serving = s.serving := rfl
@[simp] theorem modMgt_nextBatch (g : Mgt → Mgt) : (s.modMgt g).nextBatch = s.nextBatch := rfl
@[simp] theorem modMgt_mem (g : Mgt → Mgt) : (s.modMgt g).mem = s.mem := rfl
@[simp] theorem modMgt_fabric (g : Mgt → Mgt) : (s.modMgt g).fabric = s.fabric := rfl
@[simp] theorem modMgt_power (g : Mgt → Mgt) : (s.modMgt g).power = s.power := rfl
@[simp] theorem modMgt_ras (g : Mgt → Mgt) : (s.modMgt g).ras = s.ras := rfl
@[simp] theorem modMgt_sec (g : Mgt → Mgt) : (s.modMgt g).sec = s.sec := rfl
@[simp] theorem modMgt_mgt (g : Mgt → Mgt) : (s.modMgt g).mgt = g s.mgt := rfl

/-! ### Elements -/

@[simp] theorem modTile_same (t : TileId) (g : Tile → Tile) : (s.modTile t g).tiles[t] = g s.tiles[t] := by simp [State.modTile]
theorem modTile_other (t u : TileId) (g : Tile → Tile) (h : u ≠ t) : (s.modTile t g).tiles[u] = s.tiles[u] := by
  have : t.val ≠ u.val := fun e => h (Fin.ext e.symm)
  simp [State.modTile, this]
@[simp] theorem modSrv_same (n : StallId) (g : Serving → Serving) : (s.modSrv n g).serving[n] = g s.serving[n] := by simp [State.modSrv]
theorem modSrv_other (n k : StallId) (g : Serving → Serving) (h : k ≠ n) : (s.modSrv n g).serving[k] = s.serving[k] := by
  have : n.val ≠ k.val := fun e => h (Fin.ext e.symm)
  simp [State.modSrv, this]
@[simp] theorem modStall_same (n : StallId) (g : StallSt → StallSt) : (s.modStall n g).stalls[n] = g s.stalls[n] := by simp [State.modStall]
theorem modStall_other (n k : StallId) (g : StallSt → StallSt) (h : k ≠ n) : (s.modStall n g).stalls[k] = s.stalls[k] := by
  have : n.val ≠ k.val := fun e => h (Fin.ext e.symm)
  simp [State.modStall, this]
@[simp] theorem modHost_same (f : Fn) (g : HostFn → HostFn) : (s.modHost f g).host[f] = g s.host[f] := by simp [State.modHost]
theorem modHost_other (f k : Fn) (g : HostFn → HostFn) (h : k ≠ f) : (s.modHost f g).host[k] = s.host[k] := by
  have : f.val ≠ k.val := fun e => h (Fin.ext e.symm)
  simp [State.modHost, this]
@[simp] theorem modFnMem_same (f : Fn) (g : FnMem → FnMem) : (s.modFnMem f g).mem.fns[f] = g s.mem.fns[f] := by simp [State.modFnMem]

/-- A register reads what was written to it. -/
@[simp] theorem reg_setReg_same (b : Block) (o : Nat) (v : Word) : (s.setReg b o v).reg b o = v := by simp [State.reg]
theorem reg_setReg_other (b c : Block) (o p : Nat) (v : Word) (h : regKey c p ≠ regKey b o) : (s.setReg b o v).reg c p = s.reg c p := by
  simp [State.reg, mapGet_mapSet_ne _ _ _ _ _ _ h]
/-- A status register reads what was set. -/
@[simp] theorem stat_setStat_same (r : StatReg) (v : Status) : (s.setStat r v).stat r = v := by simp [State.stat]

end Sys2Proof.Machine
end

