-- ==== Sys2Proof/Laws/Dythe.lean ====
section
/-! SUPPORT. What the issue of one instruction can do, and the lanes of packed registers. -/
namespace Sys2Proof.Machine

variable {op : Nat} {t : TileId} {w : DyWord} {s : State} {f : Tile → TStep}

theorem atPc_ok (h : s.atPc t op w = true) : dyOk op w = true ∧ s.fetches t op w = true := by simpa [State.atPc] using h
/-- An instruction at the pc belongs to a kernel that runs. -/
theorem atPc_runs (h : s.atPc t op w = true) : s.runs t := by
  have k := (atPc_ok h).2
  rw [State.fetches, decide_eq_true_eq, Tile.fetch] at k
  unfold State.runs
  cases e : s.tiles[t].run with
  | none => rw [e] at k; simp at k
  | some r => rfl

/-- The instruction at the pc issues. -/
theorem dyRun_issue (h : s.atPc t op w = true) : dyRun op t w f s = .next (s.tick.issue t f) := by simp [dyRun, h]
/-- An instruction that ends moves the pc on. -/
theorem dyRun_go {u : Tile} (h : s.atPc t op w = true) (g : f s.tiles[t] = .go u) : dyRun op t w f s = .next (s.ends t u.advance) := by
  rw [dyRun_issue h]; simp only [State.issue, tick_tiles, g, State.ends]
/-- An instruction that sets the pc. -/
theorem dyRun_jump {u : Tile} (h : s.atPc t op w = true) (g : f s.tiles[t] = .jump u) : dyRun op t w f s = .next (s.ends t u) := by
  rw [dyRun_issue h]; simp only [State.issue, tick_tiles, g, State.ends]
/-- An instruction that waits: only the clock goes on. -/
theorem dyRun_hold (h : s.atPc t op w = true) (g : f s.tiles[t] = .hold) : dyRun op t w f s = .next s.tick := by
  rw [dyRun_issue h]; simp only [State.issue, tick_tiles, g]
/-- An instruction that faults. -/
theorem dyRun_fault {c : Cause} {code : BitVec 16} (h : s.atPc t op w = true) (g : f s.tiles[t] = .fault c code) :
    dyRun op t w f s = .next (s.tick.faultKernel t c code) := by
  rw [dyRun_issue h]; simp only [State.issue, tick_tiles, g]
/-- An instruction that reaches beyond its tile. -/
theorem dyRunS_run {g : Tile → State → State} (h : s.atPc t op w = true) : dyRunS op t w g s = .next (g s.tiles[t] s.tick) := by
  simp [dyRunS, h]
/-- An instruction that the pc does not stand at does not issue, nor does a word that the loader refuses (R89). -/
theorem dyRun_elsewhere (h : s.atPc t op w = false) : dyRun op t w f s = .next s.tick := by simp [dyRun, h]
theorem dyRunS_elsewhere {g : Tile → State → State} (h : s.atPc t op w = false) : dyRunS op t w g s = .next s.tick := by simp [dyRunS, h]
theorem atPc_refused (h : dyOk op w = false) : s.atPc t op w = false := by simp [State.atPc, h]

/-! ### Lanes -/

theorem packLanes_lt (bits : Nat) (l : List Nat) : packLanes bits l < 2 ^ (bits * l.length) := by
  induction l with
  | nil => simp [packLanes]
  | cons x l ih =>
    have h1 : x % 2 ^ bits < 2 ^ bits := Nat.mod_lt _ (by positivity)
    have h2 : 2 ^ (bits * (x :: l).length) = 2 ^ bits * 2 ^ (bits * l.length) := by rw [← pow_add]; congr 1; simp; ring
    rw [packLanes, h2]
    calc x % 2 ^ bits + 2 ^ bits * packLanes bits l < 2 ^ bits + 2 ^ bits * packLanes bits l := by omega
      _ = 2 ^ bits * (packLanes bits l + 1) := by ring
      _ ≤ 2 ^ bits * 2 ^ (bits * l.length) := Nat.mul_le_mul_left _ ih

theorem packLanes_get (bits : Nat) (l : List Nat) (i : Nat) (h : i < l.length) : packLanes bits l / 2 ^ (bits * i) % 2 ^ bits = l[i] % 2 ^ bits := by
  induction l generalizing i with
  | nil => simp at h
  | cons x l ih =>
    have p : 0 < 2 ^ bits := by positivity
    have h1 : x % 2 ^ bits < 2 ^ bits := Nat.mod_lt _ p
    cases i with
    | zero => simp [packLanes]
    | succ i =>
      have e : 2 ^ (bits * (i + 1)) = 2 ^ bits * 2 ^ (bits * i) := by rw [← pow_add]; congr 1; ring
      have q : (x % 2 ^ bits + 2 ^ bits * packLanes bits l) / 2 ^ bits = packLanes bits l := by
        rw [Nat.add_mul_div_left _ _ p, Nat.div_eq_of_lt h1, Nat.zero_add]
      rw [packLanes, e, ← Nat.div_div_eq_div_mul, q]
      simpa using ih i (by simpa using h)

/-- Lane `i` of a register packed from lanes that fill it. -/
theorem lane_pack (bits : Nat) (l : List Nat) (i : Nat) (h : i < l.length) (full : bits * l.length = 2048) :
    lane (BitVec.ofNat 2048 (packLanes bits l)) bits i = l[i] % 2 ^ bits := by
  have lt := packLanes_lt bits l
  rw [full] at lt
  simp only [lane, BitVec.toNat_ofNat, Nat.mod_eq_of_lt lt]
  exact packLanes_get bits l i h

theorem lanes_full (ty : BitVec 4) : laneBits ty * lanesOf ty = 2048 := by
  revert ty; decide
theorem lane_lt (x : BitVec 2048) (bits i : Nat) : lane x bits i < 2 ^ bits := Nat.mod_lt _ (by positivity)

/-- The lanes of a destination register: active lanes from `f`, the others kept. -/
theorem lanesAre_mapLanes (t : Tile) (w : DyWord) (f : Nat → Nat) : lanesAre t w (t.vreg w.d) (t.mapLanes w f) f := by
  intro i hi
  have full : laneBits w.t * ((List.range (lanesOf w.t)).map fun i => if t.active w w.t i then f i else lane (t.vreg w.d) (laneBits w.t) i).length = 2048 := by
    simpa using lanes_full w.t
  rw [Tile.mapLanes, lane_pack _ _ i (by simpa using hi) full]
  by_cases a : t.active w w.t i
  · simp [a]
  · simp [a, Nat.mod_eq_of_lt (lane_lt _ _ _)]

/-! ### The tile store -/

theorem toBytesLE_length (n v : Nat) : (toBytesLE n v).length = n := by
  induction n generalizing v with
  | zero => rfl
  | succ n ih => simp [toBytesLE, ih]

theorem toBytesLE_get (n v i : Nat) (h : i < n) : (toBytesLE n v)[i]? = some (BitVec.ofNat 8 (v / 2 ^ (8 * i))) := by
  induction n generalizing v i with
  | zero => omega
  | succ n ih =>
    cases i with
    | zero => simp [toBytesLE]
    | succ i =>
      have e : 2 ^ (8 * (i + 1)) = 256 * 2 ^ (8 * i) := by rw [show 8 * (i + 1) = 8 + 8 * i by ring, pow_add]; norm_num
      simp only [toBytesLE, List.getElem?_cons_succ]
      rw [ih _ _ (by omega), Nat.div_div_eq_div_mul, e]

/-- A tile-store write sets the bytes of its range and leaves every other. -/
theorem mapGet_storeWrite (m : AMap Byte) (a : Nat) (bs : List Byte) (x : Nat) :
    mapGet 0 (storeWrite m a bs) x = if a ≤ x then (bs[x - a]?).getD (mapGet 0 m x) else mapGet 0 m x := by
  induction bs generalizing m a with
  | nil => simp [storeWrite]
  | cons b bs ih =>
    rw [storeWrite, ih]
    by_cases e : x = a
    · subst e; simp
    · by_cases le : a ≤ x
      · have h1 : a + 1 ≤ x := by omega
        have h2 : x - a = (x - (a + 1)) + 1 := by omega
        rw [if_pos h1, if_pos le, h2, List.getElem?_cons_succ, mapGet_mapSet_other _ _ _ _ _ e]
      · have h1 : ¬ a + 1 ≤ x := by omega
        rw [if_neg h1, if_neg le, mapGet_mapSet_other _ _ _ _ _ e]

/-- A write to memory sets the bytes of its range and leaves every other. -/
theorem mapGet_cellsWrite (m : List Host.Cell) (a : Nat) (bs : List Byte) (x : Nat) :
    mapGet 0 (cellsWrite m a bs) x = if a ≤ x then (bs[x - a]?).getD (mapGet 0 m x) else mapGet 0 m x := by
  induction bs generalizing m a with
  | nil => simp [cellsWrite]
  | cons b bs ih =>
    rw [cellsWrite, ih]
    by_cases e : x = a
    · subst e; simp
    · by_cases le : a ≤ x
      · have h1 : a + 1 ≤ x := by omega
        have h2 : x - a = (x - (a + 1)) + 1 := by omega
        rw [if_pos h1, if_pos le, h2, List.getElem?_cons_succ, mapGet_mapSet_other _ _ _ _ _ e]
      · have h1 : ¬ a + 1 ≤ x := by omega
        rw [if_neg h1, if_neg le, mapGet_mapSet_other _ _ _ _ _ e]

end Sys2Proof.Machine
end

