-- ==== Sys2Proof/Laws/Memory.lean ====
section
/-! SUPPORT. Laws of the memory that the block addresses: every operation that changes its bytes keeps the canonical form, and what a byte reads as after a store. -/
namespace Sys2Proof.Machine

/-- Storing bytes keeps the canonical form. -/
theorem cellsWrite_wf (m : List Host.Cell) (k : Nat) (bs : List Byte) (h : Memory.wf m = true) : Memory.wf (cellsWrite m k bs) = true := by
  induction bs generalizing m k with
  | nil => exact h
  | cons b bs ih => exact ih _ _ (mapCanon_mapSet 0 m k b h)

/-- A byte after a store: the stored byte within the range, the old byte outside. -/
theorem cellsWrite_get (m : List Host.Cell) (k : Nat) (bs : List Byte) (j : Nat) :
    mapGet 0 (cellsWrite m k bs) j = if k ≤ j ∧ j < k + bs.length then bs.getD (j - k) 0 else mapGet 0 m j := by
  induction bs generalizing m k with
  | nil => simp [cellsWrite]
  | cons b bs ih =>
    rw [cellsWrite, ih, mapGet_mapSet]
    by_cases h1 : j = k
    · subst h1
      simp
    · by_cases h2 : k + 1 ≤ j ∧ j < k + 1 + bs.length
      · have h3 : k ≤ j ∧ j < k + (b :: bs).length := by simp; omega
        have h4 : j - k = (j - (k + 1)) + 1 := by omega
        rw [if_pos h2, if_pos h3, h4, List.getD_cons_succ]
      · have h3 : ¬ (k ≤ j ∧ j < k + (b :: bs).length) := by simp; omega
        rw [if_neg h2, if_neg h3, if_neg h1]

theorem write_wf (m : MemUnit) (k : Nat) (bs : List Byte) (h : Memory.wf m.cells = true) : Memory.wf (m.write k bs).cells = true := cellsWrite_wf _ _ _ h
@[simp] theorem mark_cells (m : MemUnit) (b : Nat) : (m.mark b).cells = m.cells := rfl
theorem wipe_wf (m : MemUnit) (f : Fn) (h : Memory.wf m.cells = true) : Memory.wf (m.wipe f).cells = true := mapCanon_mapDrop 0 _ _ h
theorem restart_wf (m : MemUnit) (p : List (Nat × Nat)) (cold : Bool) : Memory.wf (m.restart p cold).cells = true := rfl

/-- Whether the memory has its canonical form depends on its cells alone. -/
theorem memOk_of_cells {s t : State} (h : t.mem.cells = s.mem.cells) (k : s.memOk = true) : t.memOk = true := by
  unfold State.memOk at *
  rw [h]
  exact k

@[simp] theorem modFnMem_cells (s : State) (f : Fn) (g : FnMem → FnMem) : (s.modFnMem f g).mem.cells = s.mem.cells := rfl
@[simp] theorem modAllocAt_cells (s : State) (f : Fn) (b : Nat) (g : Alloc → Alloc) : (s.modAllocAt f b g).mem.cells = s.mem.cells := rfl

@[simp] theorem countSome_mem (s : State) (w : Option StallId) (c k : Nat) : (s.countSome w c k).mem = s.mem := by
  unfold State.countSome; split <;> rfl
@[simp] theorem wantMore_mem (s : State) (n : StallId) (l : List TxnKind) : (s.wantMore n l).mem = s.mem := by
  unfold State.wantMore; split <;> rfl
@[simp] theorem putPool_mem (s : State) (f : Fn) (d : Die) (x n : Nat) : (s.putPool f d x n).mem = s.mem := by
  unfold State.putPool; split <;> simp
@[simp] theorem askSectors_cells (s : State) (f : Fn) (l : List Nat) : (s.askSectors f l).mem.cells = s.mem.cells := by simp [State.askSectors]
@[simp] theorem access_cells (s : State) (f : Fn) (d : Die) (wr : Bool) (l : List (Nat × Nat)) : (s.access f d wr l).mem.cells = s.mem.cells := by
  simp only [State.access, countSome_mem, askSectors_cells]; rfl
@[simp] theorem dropLines_cells (s : State) (p : Nat → Bool) : (s.dropLines p).mem.cells = s.mem.cells := rfl
@[simp] theorem cleanLines_cells (s : State) (f : Fn) (a b : Nat) : (s.cleanLines f a b).mem.cells = s.mem.cells := by
  simp only [State.cleanLines, countSome_mem]; rfl
@[simp] theorem writeBack_cells (s : State) (f : Fn) (p : Nat → Bool) : (s.writeBack f p).mem.cells = s.mem.cells := rfl
@[simp] theorem copyPage_cells (s : State) (f : Fn) (p : Nat) : (s.copyPage f p).mem.cells = s.mem.cells := by simp [State.copyPage]
/-- Taking a staging page leaves the bytes of memory as they are. -/
theorem takeStaged_cells (s u : State) (f : Fn) (st : Staged) (h : s.takeStaged f st = some u) : u.mem.cells = s.mem.cells := by
  unfold State.takeStaged at h
  dsimp only at h
  split at h
  · cases h; rfl
  · split at h
    · cases h; rfl
    · split at h
      · split at h
        · cases h; simp
        · cases h
      · cases h

theorem modMem_write_memOk (s : State) (k : Nat) (bs : List Byte) (h : s.memOk = true) : (s.modMem fun m => m.write k bs).memOk = true := cellsWrite_wf _ _ _ h
theorem clearRange_memOk (s : State) (f : Fn) (a n : Nat) (h : s.memOk = true) : (s.clearRange f a n).memOk = true := by
  show Memory.wf (mapDrop (fun x => decide (memKey f a ≤ x) && decide (x < memKey f a + n)) s.mem.cells) = true
  exact mapCanon_mapDrop 0 _ _ h
theorem markMem_memOk (s : State) (f : Fn) (x : Nat) (h : s.memOk = true) : (s.markMem f x).memOk = true := h

/-- What one write within a page does to the bytes of memory: it stores them, or, where an import has been withdrawn, discards them (R354). -/
theorem writePage_cells (s : State) (f : Fn) (a : Alloc) (x : Nat) (bs : List Byte) (d : Die) :
    (s.writePage f a x bs d).mem.cells = if a.tierAt x = .pool ∧ a.withdrawn = true then s.mem.cells else cellsWrite s.mem.cells (memKey f x) bs := by
  unfold State.writePage
  dsimp only
  cases t : a.tierAt x
  · simp; rfl
  · simp only [reduceCtorEq, false_and, if_false]
    split
    · rfl
    · split
      · rfl
      · generalize e : (if bs.length = 65536 then _ else _ : State) = u
        have hu : u.mem.cells = s.mem.cells := by rw [← e]; split <;> simp
        show cellsWrite (State.mem (Option.getD _ _)).cells _ _ = _
        congr 1
        cases k : u.takeStaged (a.owner f) ⟨a.base, a.pageOf x, true, false⟩ with
        | none => simp
        | some v => simpa [k] using (takeStaged_cells _ _ _ _ k).trans hu
  · by_cases w : a.withdrawn = true
    · simp [w]; rfl
    · simp [w]; rfl
theorem writePage_memOk (s : State) (f : Fn) (a : Alloc) (x : Nat) (bs : List Byte) (d : Die) (h : s.memOk = true) : (s.writePage f a x bs d).memOk = true := by
  unfold State.memOk at *
  rw [writePage_cells]
  split
  · exact h
  · exact cellsWrite_wf _ _ _ h

/-- Every write of memory keeps the canonical form. -/
theorem writeMem_memOk (s : State) (f : Fn) (x : Nat) (bs : List Byte) (d : Die) (h : s.memOk = true) : (s.writeMem f x bs d).memOk = true := by
  unfold State.writeMem
  generalize bs.length / 65536 + 2 = n
  refine memOk_of_cells (access_cells _ _ _ _ _) ?_
  generalize bs = b
  induction n generalizing s x b with
  | zero => exact h
  | succ n ih =>
    unfold State.writeMemFuel
    split
    · exact h
    · split
      · exact h
      · exact ih _ _ (writePage_memOk _ _ _ _ _ _ h) _
theorem writeNat_memOk (s : State) (f : Fn) (x n v : Nat) (d : Die) (h : s.memOk = true) : (s.writeNat f x n v d).memOk = true := writeMem_memOk s f x _ d h

/-- An image comes into its Stall's space in canonical form. -/
theorem installImage_memOk (s : State) (n : StallId) (i : Image) (h : s.memOk = true) : (s.installImage n i).memOk = true := by
  apply mapCanon_foldl 0 _ _ _ _ (wipe_wf s.mem (vfOf n) h)
  intro m b c
  split
  · exact mapCanon_mapSet 0 m _ _ c
  · exact c

/-- The memory of the state after reset. -/
theorem reset_memOk : State.reset.memOk = true := rfl

end Sys2Proof.Machine
end

