-- ==== Sys2Proof/Laws/Frames.lean ====
section
/-! SUPPORT. What the shared operations of memory can change: memory, counters, the fabric and the pages of functions, and nothing else of the state. -/
namespace Sys2Proof.Machine

/-- The second state is the first but for memory, counters, the fabric and the pages of functions. -/
def State.memStep (s t : State) : Prop := ∃ m c x h, t = { s with mem := m, counters := c, fabric := x, host := h }

theorem memStep_refl (s : State) : s.memStep s := ⟨_, _, _, _, rfl⟩
theorem memStep_trans {s t u : State} (h : s.memStep t) (k : t.memStep u) : s.memStep u := by
  obtain ⟨_, _, _, _, rfl⟩ := h
  obtain ⟨_, _, _, _, rfl⟩ := k
  exact ⟨_, _, _, _, rfl⟩
/-- A fold of such steps is one. -/
theorem memStep_foldl {α : Type} (g : State → α → State) (hg : ∀ (s : State) (a : α), s.memStep (g s a)) (l : List α) (s : State) : s.memStep (l.foldl g s) := by
  induction l generalizing s with
  | nil => exact memStep_refl s
  | cons a l ih => exact memStep_trans (hg s a) (ih _)

/-- What such a step leaves: every field but those four. -/
theorem memStep_keeps {s t : State} (h : s.memStep t) :
    t.pending = s.pending ∧ t.now = s.now ∧ t.fresh = s.fresh ∧ t.regs = s.regs ∧ t.status = s.status ∧ t.stalls = s.stalls ∧ t.churn = s.churn ∧ t.tiles = s.tiles ∧
      t.serving = s.serving ∧ t.power = s.power ∧ t.ras = s.ras ∧ t.sec = s.sec ∧ t.mgt = s.mgt ∧ t.sent = s.sent := by
  obtain ⟨_, _, _, _, rfl⟩ := h
  exact ⟨rfl, rfl, rfl, rfl, rfl, rfl, rfl, rfl, rfl, rfl, rfl, rfl, rfl, rfl⟩

theorem modMem_memStep (s : State) (g : MemUnit → MemUnit) : s.memStep (s.modMem g) := ⟨_, _, _, _, rfl⟩
theorem modFnMem_memStep (s : State) (f : Fn) (g : FnMem → FnMem) : s.memStep (s.modFnMem f g) := ⟨_, _, _, _, rfl⟩
theorem modAllocAt_memStep (s : State) (f : Fn) (b : Nat) (g : Alloc → Alloc) : s.memStep (s.modAllocAt f b g) := ⟨_, _, _, _, rfl⟩
theorem modHost_memStep (s : State) (f : Fn) (g : HostFn → HostFn) : s.memStep (s.modHost f g) := ⟨_, _, _, _, rfl⟩
theorem count_memStep (s : State) (w : Option StallId) (c k : Nat) : s.memStep (s.count w c k) := ⟨_, _, _, _, rfl⟩
theorem countSome_memStep (s : State) (w : Option StallId) (c k : Nat) : s.memStep (s.countSome w c k) := by
  unfold State.countSome
  split
  · exact memStep_refl s
  · exact count_memStep s w c k
theorem wantMore_memStep (s : State) (n : StallId) (l : List TxnKind) : s.memStep (s.wantMore n l) := by
  unfold State.wantMore
  split
  · exact memStep_refl s
  · exact ⟨_, _, _, _, rfl⟩

/-- An access changes caches, ring bytes, flash reads and counts (R14, R329–R331). -/
theorem access_memStep (s : State) (f : Fn) (d : Die) (wr : Bool) (l : List (Nat × Nat)) : s.memStep (s.access f d wr l) := by
  unfold State.access State.askSectors
  refine memStep_trans ?_ (countSome_memStep _ _ _ _)
  refine memStep_trans ?_ (countSome_memStep _ _ _ _)
  refine memStep_trans ?_ (countSome_memStep _ _ _ _)
  refine memStep_trans ?_ (countSome_memStep _ _ _ _)
  exact memStep_trans (modMem_memStep _ _) (memStep_trans (modFnMem_memStep _ _ _) (countSome_memStep _ _ _ _))

/-- Asking for blocks of imports changes what the Stall wants of the fabric (R354). -/
theorem seek_memStep (s : State) (f : Fn) (d : Die) (r w : List (Nat × Nat)) : s.memStep (s.seek f d r w) := by
  unfold State.seek
  split
  · exact wantMore_memStep _ _ _
  · exact memStep_refl s

/-- A read is noted in memory, and a poisoned one in the page of the function (R451). -/
theorem noteReads_memStep (s : State) (f : Fn) (l : List (Nat × Nat)) (d : Die) : s.memStep (s.noteReads f l d) := by
  have ht : s.memStep (s.touch f l) := memStep_foldl _ (fun s x => by split; exacts [modAllocAt_memStep _ _ _ _, memStep_refl s]) _ _
  have hr : ∀ u : State, u.memStep (u.refreshStaged f l) := fun u => memStep_foldl _ (fun s r => memStep_foldl _ (fun s i => by
    dsimp only
    split
    · split
      exacts [modFnMem_memStep _ _ _, memStep_refl s]
    · exact memStep_refl s) _ _) _ _
  have h := memStep_trans ht (memStep_trans (hr _) (memStep_trans (access_memStep _ f d false l) (modFnMem_memStep _ f fun m =>
    { m with poolIn := m.poolIn.filter fun b => !(s.poolBlocks f l).any fun x => decide (x.1 / 64 ≤ b) && decide (b < x.1 / 64 + x.2) })))
  unfold State.noteReads
  dsimp only
  split
  · exact memStep_trans h (modHost_memStep _ _ _)
  · exact h

/-- A page is copied into the write buffer (R339, R341). -/
theorem copyPage_memStep (s : State) (f : Fn) (p : Nat) : s.memStep (s.copyPage f p) := by
  unfold State.copyPage State.cleanLines State.writeBack
  exact memStep_trans (modMem_memStep s _) (memStep_trans (countSome_memStep _ _ _ _) (memStep_trans (modFnMem_memStep _ _ _) (modFnMem_memStep _ _ _)))
theorem takeStaged_memStep {s u : State} {f : Fn} {st : Staged} (h : s.takeStaged f st = some u) : s.memStep u := by
  unfold State.takeStaged at h
  dsimp only at h
  split at h
  · cases h; exact modFnMem_memStep _ _ _
  · split at h
    · cases h; exact modFnMem_memStep _ _ _
    · split at h
      · split at h
        · cases h; exact memStep_trans (copyPage_memStep _ _ _) (modFnMem_memStep _ _ _)
        · cases h
      · cases h

/-- A write within a page. -/
theorem writePage_memStep (s : State) (f : Fn) (a : Alloc) (x : Nat) (bs : List Byte) (d : Die) : s.memStep (s.writePage f a x bs d) := by
  unfold State.writePage
  dsimp only
  have ha : ∀ g, s.memStep (s.modAllocAt (a.owner f) a.base g) := modAllocAt_memStep s _ _
  generalize hu : s.modAllocAt (a.owner f) a.base _ = u
  refine memStep_trans (hu ▸ ha _ : s.memStep u) ?_
  have put : ∀ v : State, v.memStep (v.modMem fun m => m.write (memKey f x) bs) := fun v => modMem_memStep _ _
  split
  · exact put _
  · split
    · exact count_memStep _ _ _ _
    · refine memStep_trans (put _) ?_
      unfold State.putPool
      split
      · exact wantMore_memStep _ _ _
      · exact memStep_refl _
  · split
    · exact memStep_trans (put _) (memStep_trans (modFnMem_memStep _ _ _) (modFnMem_memStep _ _ _))
    · split
      · exact memStep_trans (put _) (modFnMem_memStep _ _ _)
      · refine memStep_trans ?_ (put _)
        generalize e : (if bs.length = 65536 then u else _ : State) = v
        have hv : u.memStep v := by
          rw [← e]
          split
          · exact memStep_refl _
          · exact memStep_trans (modFnMem_memStep _ _ _) (countSome_memStep _ _ _ _)
        cases k : v.takeStaged (a.owner f) ⟨a.base, a.pageOf x, true, false⟩ with
        | none => exact memStep_refl u
        | some w => exact memStep_trans hv (takeStaged_memStep k)

/-- A write of global memory (R332–R341). -/
theorem writeMem_memStep (s : State) (f : Fn) (x : Nat) (bs : List Byte) (d : Die) : s.memStep (s.writeMem f x bs d) := by
  unfold State.writeMem
  refine memStep_trans ?_ (access_memStep _ _ _ _ _)
  generalize bs.length / 65536 + 2 = n
  generalize bs = b
  induction n generalizing s x b with
  | zero => exact memStep_refl s
  | succ n ih =>
    unfold State.writeMemFuel
    split
    · exact memStep_refl s
    · split
      · exact memStep_refl s
      · exact memStep_trans (writePage_memStep _ _ _ _ _ _) (ih _ _ _)

/-- A free block is erased only (R356). -/
theorem moveBlock_erases (s : State) (b : Nat) (h : s.mem.flash.block b = none) : s.moveBlock b = (s.modFlash fun x => x.erase b).wearCheck := by
  simp only [State.moveBlock, h]

end Sys2Proof.Machine
end

