-- ==== Sys2Proof/Machine/ConfigSpace.lean ====
section
/-! DEFINITION. What the functions show the host in their configuration space: identities, BARs, SR-IOV and capabilities (R396, R398–R400). -/
namespace Sys2Proof.Machine

/-! ### Identities and BARs (Table 16.3) -/

def pciVendor : Nat := 0x1F4B
def pciDevice (f : Fn) : Nat := if f = pf0 then 0x9140 else 0x9141
/-- GLB_IDENT[15:8]. -/
def pciRevision : Nat := glbIdent.toNat / 256 % 256
def pciClass : Nat := 0x120000
/-- The subsystem vendor and device IDs, from the signed configuration record. -/
def State.pciSubsystem (s : State) : Nat × Nat := (s.sec.cfg.ssvid, s.sec.cfg.ssdid)
/-- Bytes of BAR `k`, 64-bit and non-prefetchable; none where it is not implemented. -/
def barBytes (f : Fn) (k : Nat) : Option Nat :=
  if k = 0 then some (if f = pf0 then 0x10000000 else 0x100000) else if k = 2 then some 0x4000 else none

/-! ### SR-IOV (R399) -/

def totalVfs : Nat := 16
/-- NumVFs takes writes, but any value acts as 16. -/
def numVfs (_written : Nat) : Nat := totalVfs
/-- The routing identifier of VF n + 1, with a First VF Offset and a VF Stride of 1. -/
def vfRouting (pf : Nat) (n : StallId) : Nat := pf + 1 + n.val

/-! ### Capabilities (Table 16.4) -/

inductive Capability where
  | powerManagement | msix | pciExpress | advancedErrors | ari | srIov | secondaryPcie | dataLinkFeature | phy16 | phy32 | phy64 | laneMargining | serialNumber
  | dataObjectExchange | ide
deriving DecidableEq, Repr

/-- The capabilities of a function with their offsets; no other is present. -/
def capabilities (f : Fn) : List (Nat × Capability) :=
  let both := [(0x050, Capability.msix), (0x070, .pciExpress), (0x100, .advancedErrors), (0x150, .ari), (0x300, .dataObjectExchange)]
  if f = pf0 then
    both ++ [(0x040, .powerManagement), (0x160, .srIov), (0x1A0, .secondaryPcie), (0x1C0, .dataLinkFeature), (0x1D0, .phy16), (0x200, .phy32), (0x220, .phy64),
             (0x240, .laneMargining), (0x280, .serialNumber), (0x340, .ide)]
  else both
/-- MSI-X: vectors of a function, and where BAR2 holds its table and its pending bits. -/
def msixVectors : Nat := 32
def msixTableAt : Nat := 0x0000
def msixPbaAt : Nat := 0x1000

/-! ### The link (Table 16.1) -/

/-- Rates in MT/s, the fastest first. -/
def linkRates : List Nat := [64000, 32000, 16000, 8000, 5000, 2500]
/-- Widths that the configuration record allows, the widest first. -/
def State.linkWidths (s : State) : List Nat := [16, 8, 4, 2, 1].filter fun w => decide (w ≤ s.sec.cfg.hostWidth)
def maxPayload : Nat := 512
def maxReadRequest : Nat := 4096
/-- Outstanding non-posted requests over all functions. -/
def maxTags : Nat := 1024

end Sys2Proof.Machine
end

