-- ==== Sys2Proof/Machine/Module.lean ====
section
/-! DEFINITION. The module: contacts, optical positions, limits and ratings (R427, R502–R516). Nothing here changes as the machine runs. -/
namespace Sys2Proof.Machine

/-! ### The host connector (R504, R505) -/

inductive ConnBlock where
  | a | b
deriving DecidableEq, Repr
/-- Contact HCa-xnn: block, row A–F, column 1–20. -/
structure Contact where
  block  : ConnBlock
  row    : Char
  column : Nat
deriving DecidableEq, Repr

/-- Lanes 0–7 lie on block A, 8–15 on block B. -/
def laneBlock (l : Fin 16) : ConnBlock := if l.val < 8 then .a else .b
/-- PETpL and PETnL: transmit of a lane, in row B. -/
def transmitContacts (l : Fin 16) : Contact × Contact := (⟨laneBlock l, 'B', 2 * (l.val % 8) + 1⟩, ⟨laneBlock l, 'B', 2 * (l.val % 8) + 2⟩)
/-- PERpL and PERnL: receive of a lane, in row D. -/
def receiveContacts (l : Fin 16) : Contact × Contact := (⟨laneBlock l, 'D', 2 * (l.val % 8) + 1⟩, ⟨laneBlock l, 'D', 2 * (l.val % 8) + 2⟩)

/-- The sideband, clock, reset and test signals (Table 21.2). -/
inductive ModSignal where
  | refclkP | refclkN | perstN | prsntN | smbClk | smbDat | smbAlertN | pmbA0 | pmbA1 | jtagTck | jtagTms | jtagTdi | jtagTdo | jtagTrstN
deriving DecidableEq, Repr
def signalContact : ModSignal → Contact
  | .refclkP => ⟨.a, 'B', 17⟩ | .refclkN => ⟨.a, 'B', 18⟩ | .perstN => ⟨.a, 'D', 17⟩ | .prsntN => ⟨.a, 'D', 18⟩ | .smbClk => ⟨.a, 'B', 19⟩ | .smbDat => ⟨.a, 'B', 20⟩
  | .smbAlertN => ⟨.a, 'D', 19⟩ | .pmbA0 => ⟨.a, 'D', 20⟩ | .pmbA1 => ⟨.b, 'B', 17⟩ | .jtagTck => ⟨.b, 'B', 18⟩ | .jtagTms => ⟨.b, 'B', 19⟩ | .jtagTdi => ⟨.b, 'B', 20⟩
  | .jtagTdo => ⟨.b, 'D', 17⟩ | .jtagTrstN => ⟨.b, 'D', 18⟩
/-- Rows A, C, E and F of both blocks are ground; two contacts of row D are reserved. -/
def Contact.ground (c : Contact) : Bool := c.row = 'A' || c.row = 'C' || c.row = 'E' || c.row = 'F'
def Contact.reserved (c : Contact) : Bool := decide (c = ⟨.b, 'D', 19⟩) || decide (c = ⟨.b, 'D', 20⟩)
/-- While VSTBY is out of regulation every sideband, strap and JTAG contact is high-impedance (R506); PERST is held in reset by its pull-down. -/
def Power.highImpedance (p : Power) (x : ModSignal) : Bool := !p.vstby && !(decide (x = .refclkP) || decide (x = .refclkN) || decide (x = .perstN) || decide (x = .prsntN))

/-! ### Power blades and mating order (R508, R509) -/

inductive Mating where
  | pbMinus | pbPlus | host | prsntN
deriving DecidableEq, Repr
/-- The order in which contacts mate, and the tenths of a millimetre before full insertion; they break in the reverse order (Table 21.3). -/
def matingOrder : List (Mating × Nat) := [(.pbMinus, 40), (.pbPlus, 30), (.host, 15), (.prsntN, 5)]
/-- Input current at most, averaged over 20 µs, in A: outside the glides of R432, and within one. -/
def inputAmps (gliding : Bool) : Nat := if gliding then 77 else 72
def bladeAmps : Nat := 100
def matingCycles : Nat := 250

/-! ### Optical connectors (R510, R511) -/

/-- The port that row `r` (1–4) of connector OCe carries. -/
def rowPort (e : Fin 8) (r : Nat) : Nat := 4 * e.val + r - 1
/-- Positions of the transmit and the receive lanes of a port in its row. -/
def txPosition (l : Fin 8) : Nat := l.val + 1
def rxPosition (l : Fin 8) : Nat := 16 - l.val
/-- A cable keeps the row and reverses positions within it. -/
def cablePosition (i : Nat) : Nat := 17 - i
/-- The channel between two ports: tenths of a dB at 1310 nm, and metres, at most. -/
def channelLoss : Nat := 40
def channelLength : Nat := 1000

/-! ### Outline, coolant and ratings (R503, R512, R515, R516) -/

/-- An inclusive range of a figure, in the unit that its field names. -/
structure Band where
  lo : Int
  hi : Int
deriving DecidableEq, Repr
def Band.holds (b : Band) (x : Int) : Bool := decide (b.lo ≤ x) && decide (x ≤ b.hi)

/-- Length, width and height in tenths of a millimetre; mass drained and filled in grams (Table 21.1). -/
def outline : Nat × Nat × Nat := (1900, 1400, 380)
def massGrams : Nat × Nat := (2900, 3000)

/-- Watts: what the cold plate removes of the maximum input power, and what the air takes at most (R512). -/
def maxInputW : Nat := 2700
def plateW : Nat := 2550
def airW : Nat := 150
/-- Coolant: flow in tenths of a litre per minute, inlet in °C (Table 21.5). -/
def coolantFlow : Band := ⟨30, 60⟩
def coolantInlet : Band := ⟨15, 40⟩
/-- Pressure drop in kPa at a flow in tenths of a litre per minute: 40 kPa at 3.0, rising with the square. -/
def pressureDrop (flow : Nat) : Nat := 40 * flow * flow / 900

/-- Absolute maximum ratings (Table 21.6): PB+ to PB− in V, continuous and for 1 ms; contacts in tenths of a V; optical receive power in dBm; coolant in kPa and °C;
storage in °C, drained and filled. -/
def ratedInput : Band := ⟨-60, 80⟩
def ratedTransientV : Int := 100
def ratedContact : Band := ⟨-3, 36⟩
def ratedOpticalDbm : Int := 5
def ratedCoolantKpa : Int := 600
def ratedCoolantC : Int := 60
def storageDrained : Band := ⟨-20, 60⟩
def storageFilled : Band := ⟨-5, 60⟩

/-- Operating conditions (Table 21.7): input in V, air in °C, humidity in %, altitude in m. -/
def operatingInput : Band := ⟨40, 60⟩
def operatingAir : Band := ⟨10, 45⟩
def operatingHumidity : Band := ⟨8, 85⟩
def operatingAltitude : Int := 3000

/-! ### Rails (R427) -/

/-- A rail is in regulation within 5 % of its nominal voltage, in mV. -/
def railInRegulation (r : Fin 22) (mv : Nat) : Bool := decide (95 * (nominalRails[r]).toNat ≤ 100 * mv) && decide (100 * mv ≤ 105 * (nominalRails[r]).toNat)

end Sys2Proof.Machine
end

