-- ==== Sys2Proof/Tests/Slice0.lean ====
section
/-! SUPPORT. Tests: what `WellFormed` refuses, single steps with results taken from the spec's tables or worked by hand, and for each statement with hypotheses a state and operands that meet them. -/
namespace Sys2Proof.Tests
open Sys2Proof Sys2Proof.Machine
set_option Elab.async false

/-! ### Helpers -/

/-- A part of the state that a command answers. -/
def got {α : Type} (o : Out) (f : State → α) : Option α :=
  match o with
  | .next u => some (f u)
  | _ => none
def word (ty d a b : Nat) (i : Bool) (low : Nat) : DyWord := ⟨false, 0, BitVec.ofNat 4 ty, BitVec.ofNat 5 d, BitVec.ofNat 5 a, BitVec.ofNat 5 b, i, BitVec.ofNat 32 low⟩
def kern : Running := { stall := 0, item := { handle := 3, args := [], batch := 1 }, cont := 0, start := 8, len := 16, bound := 100, consts := 0, code := [], since := 0, ran := 0, seen := 0 }
/-- A tile that runs a kernel at instruction 9, with a few scalar registers set. -/
def tileOf (l : List (Nat × Nat)) : Tile :=
  { Tile.reset with run := some kern, owner := some 0, pc := 9, s := l.foldl (fun v x => v.set (Fin.ofNat 32 x.1) (BitVec.ofNat 64 x.2)) Tile.reset.s }
/-- Tile 0 is `t`; all else is at reset. -/
def sysOf (t : Tile) : State := { State.reset with tiles := State.reset.tiles.set 0 t }
def sysRegs (l : List (Nat × Nat)) : State := sysOf (tileOf l)
/-- The instruction word of Table 4.2, by its fields' places. -/
def encodeDy (op : Nat) (w : DyWord) : BitVec 64 :=
  BitVec.ofNat 64 (op * 2 ^ 56 + w.pe.toNat * 2 ^ 55 + w.pr.toNat * 2 ^ 52 + w.t.toNat * 2 ^ 48 + w.d.toNat * 2 ^ 43 + w.a.toNat * 2 ^ 38 + w.b.toNat * 2 ^ 33 + w.i.toNat * 2 ^ 32 + w.low.toNat)
/-- Tile 0's code holds the instruction at instruction 9, where `tileOf` stands. -/
def coded (op : Nat) (w : DyWord) (s : State) : State :=
  s.modTile 0 fun t => { t with run := t.run.map fun r => { r with code := List.replicate 9 0 ++ [encodeDy op w] } }
/-- Once its word is in the code, the instruction is the one at tile 0's pc. -/
def there (op : Nat) (w : DyWord) : Bool := (coded op w (sysRegs [])).atPc 0 op w
/-- What an instruction leaves in scalar register 1 of tile 0. -/
def s1 (o : Out) : Option Nat := got o fun u => (u.tiles[(0 : TileId)].sreg 1).toNat
def pcOf (o : Out) : Option Nat := got o fun u => u.tiles[(0 : TileId)].pc
def minus (n : Nat) : Nat := 2 ^ 64 - n

/-! ### WellFormed refuses what no operand may be -/

theorem wf_none_fetched : (Instr.descriptorFetch 0 0 []).wf = false := by decide
theorem wf_three_fetched : (Instr.descriptorFetch 0 0 [0, 0, 0]).wf = false := by decide
theorem wf_no_bytes : (Instr.hostReadData 0 []).wf = false := by decide
theorem wf_many_bytes : (Instr.hostReadData 0 (List.replicate 257 0)).wf = false := by decide +kernel
theorem wf_address : (Instr.memSyncDone 0 (2 ^ 48)).wf = false ∧ (Instr.tierChangeDone 0 (2 ^ 48)).wf = false ∧ (Instr.stagingPageFill 0 (2 ^ 48) 0).wf = false ∧
    (Instr.allocZeroFillDone 0 (2 ^ 48)).wf = false ∧ (Instr.hbmPatrolRead 0 0 0 (2 ^ 48) .clean).wf = false ∧ (Instr.hbmUncorrRead 0 0 0 (2 ^ 48)).wf = false := by decide
theorem wf_block : (Instr.readDisturbRefresh (2 ^ 22)).wf = false ∧ (Instr.flashPatrolRead (2 ^ 22) 0).wf = false ∧ (Instr.wearLevelMove (2 ^ 22)).wf = false ∧
    (Instr.flashBlockFail (2 ^ 22)).wf = false ∧ (Instr.flashBlockFail (2 ^ 22 - 1)).wf = true := by decide
theorem wf_tid : (Instr.transactionTimeout 0 4096).wf = false ∧ (Instr.transactionTimeout 0 4095).wf = true := by decide
theorem wf_training : (Instr.trainStateDone 0 ⟨0, 2, 1, 7, List.replicate 16 3, 5⟩).wf = false ∧ (Instr.trainStateDone 0 ⟨0, 2, 1, 7, List.replicate 17 3, 5⟩).wf = true := by decide
theorem wf_flit : (Instr.flitReceive 0 ⟨0, 0, false, .data, 0, 0, List.replicate 41 ⟨0, false⟩⟩ 0 0).wf = false := by decide +kernel
theorem wf_recovery : (Instr.recoveryMessage ⟨List.replicate 65 0, true⟩).wf = false ∧ (Instr.recoveryMessage ⟨List.replicate 64 0, true⟩).wf = true := by decide +kernel
theorem wf_phase : (Instr.startupPhaseDone ⟨0, true, []⟩).wf = false ∧ (Instr.startupPhaseDone ⟨8, true, []⟩).wf = true := by decide
theorem wf_sample : (Instr.inputDip { temps := List.replicate 55 0 }).wf = false ∧ (Instr.churnBoundary { rails := List.replicate 23 (0, 0) }).wf = false ∧ (Instr.inputDip {}).wf = true := by decide +kernel
theorem wf_request : (Instr.spdmChallenge 0 ⟨0, false, List.replicate 16385 0, []⟩).wf = false := by decide +kernel

/-! ### Scalar instructions (Table 4.4) -/

theorem test_add_wraps : s1 (exec (.dyAdd 0 (word 0 1 2 3 false 0)) (coded 0x01 (word 0 1 2 3 false 0) (sysRegs [(2, minus 1), (3, 2)]))) = some 1 := by decide
theorem test_sub_wraps : s1 (exec (.dySub 0 (word 0 1 2 3 false 0)) (coded 0x02 (word 0 1 2 3 false 0) (sysRegs [(2, 1), (3, 2)]))) = some (minus 1) := by decide
theorem test_mulh_signed : s1 (exec (.dyMulh 0 (word 0 1 2 3 false 0)) (coded 0x04 (word 0 1 2 3 false 0) (sysRegs [(2, minus 1), (3, 2)]))) = some (minus 1) := by decide
theorem test_mulhu_unsigned : s1 (exec (.dyMulhu 0 (word 0 1 2 3 false 0)) (coded 0x05 (word 0 1 2 3 false 0) (sysRegs [(2, minus 1), (3, 2)]))) = some 1 := by decide
/-- Division truncates towards zero; by zero it gives all ones, and the least number by −1 wraps. -/
theorem test_div : s1 (exec (.dyDiv 0 (word 0 1 2 3 false 0)) (coded 0x06 (word 0 1 2 3 false 0) (sysRegs [(2, minus 7), (3, 2)]))) = some (minus 3) ∧
    s1 (exec (.dyDiv 0 (word 0 1 2 3 false 0)) (coded 0x06 (word 0 1 2 3 false 0) (sysRegs [(2, 5)]))) = some (minus 1) ∧
    s1 (exec (.dyDiv 0 (word 0 1 2 3 false 0)) (coded 0x06 (word 0 1 2 3 false 0) (sysRegs [(2, 2 ^ 63), (3, minus 1)]))) = some (2 ^ 63) := by decide
theorem test_rem : s1 (exec (.dyRem 0 (word 0 1 2 3 false 0)) (coded 0x08 (word 0 1 2 3 false 0) (sysRegs [(2, minus 7), (3, 2)]))) = some (minus 1) ∧
    s1 (exec (.dyRem 0 (word 0 1 2 3 false 0)) (coded 0x08 (word 0 1 2 3 false 0) (sysRegs [(2, 5)]))) = some 5 := by decide
theorem test_shifts : s1 (exec (.dyShl 0 (word 0 1 2 3 false 0)) (coded 0x0D (word 0 1 2 3 false 0) (sysRegs [(2, 1), (3, 65)]))) = some 2 ∧
    s1 (exec (.dySra 0 (word 0 1 2 3 false 0)) (coded 0x0F (word 0 1 2 3 false 0) (sysRegs [(2, minus 8), (3, 1)]))) = some (minus 4) ∧
    s1 (exec (.dyShr 0 (word 0 1 2 3 false 0)) (coded 0x0E (word 0 1 2 3 false 0) (sysRegs [(2, minus 8), (3, 63)]))) = some 1 := by decide
theorem test_slt : s1 (exec (.dySlt 0 (word 0 1 2 3 false 0)) (coded 0x14 (word 0 1 2 3 false 0) (sysRegs [(2, minus 1), (3, 0)]))) = some 1 ∧
    s1 (exec (.dySltu 0 (word 0 1 2 3 false 0)) (coded 0x15 (word 0 1 2 3 false 0) (sysRegs [(2, minus 1), (3, 0)]))) = some 0 := by decide
/-- B′ is the sign-extended IMM with I = 1. -/
theorem test_imm : s1 (exec (.dyAdd 0 (word 0 1 2 0 true 0xFFFFFFFF)) (coded 0x01 (word 0 1 2 0 true 0xFFFFFFFF) (sysRegs [(2, 5)]))) = some 4 := by decide
theorem test_s0_reads_zero : (got (exec (.dyLi 0 (word 0 0 0 0 true 7)) (coded 0x17 (word 0 0 0 0 true 7) (sysRegs []))) fun u => u.tiles[(0 : TileId)].sreg 0) = some 0 := by decide
theorem test_lhi : s1 (exec (.dyLhi 0 (word 0 1 0 0 true 7)) (coded 0x18 (word 0 1 0 0 true 7) (sysRegs [(1, 2 ^ 40 + 9)]))) = some (7 * 2 ^ 32 + 9) := by decide
theorem test_counts : s1 (exec (.dyClz 0 (word 0 1 2 0 false 0)) (coded 0x1A (word 0 1 2 0 false 0) (sysRegs []))) = some 64 ∧ s1 (exec (.dyCtz 0 (word 0 1 2 0 false 0)) (coded 0x1B (word 0 1 2 0 false 0) (sysRegs [(2, 8)]))) = some 3 ∧
    s1 (exec (.dyPopc 0 (word 0 1 2 0 false 0)) (coded 0x19 (word 0 1 2 0 false 0) (sysRegs [(2, 0xFF)]))) = some 8 := by decide
theorem test_branch : pcOf (exec (.dyBlt 0 (word 0 0 2 3 true 0xFFFFFFFE)) (coded 0x32 (word 0 0 2 3 true 0xFFFFFFFE) (sysRegs [(2, minus 1), (3, 0)]))) = some 7 ∧
    pcOf (exec (.dyBltu 0 (word 0 0 2 3 true 0xFFFFFFFE)) (coded 0x34 (word 0 0 2 3 true 0xFFFFFFFE) (sysRegs [(2, minus 1), (3, 0)]))) = some 10 := by decide
theorem test_call : (got (exec (.dyCall 0 (word 0 0 0 0 true 5)) (coded 0x37 (word 0 0 0 0 true 5) (sysRegs []))) fun u => (u.tiles[(0 : TileId)].pc, u.tiles[(0 : TileId)].ret)) = some (14, [10]) := by decide
/-- Nothing issues where the word at the pc is another one, nor for a word that the loader refuses: T is not 0 where the instruction has no type. -/
theorem test_elsewhere : exec (.dyAdd 0 (word 0 1 2 3 false 0)) (coded 0x02 (word 0 1 2 3 false 0) (sysRegs [])) = .next (coded 0x02 (word 0 1 2 3 false 0) (sysRegs [])).tick ∧
    exec (.dyAdd 0 (word 5 1 2 3 false 0)) (coded 0x01 (word 5 1 2 3 false 0) (sysRegs [])) = .next (coded 0x01 (word 5 1 2 3 false 0) (sysRegs [])).tick := ⟨rfl, rfl⟩

/-! ### Witnesses: tiles -/

/-- The tile of `sysRegs`, for premises that name only the tile. -/
def tl (l : List (Nat × Nat)) : Tile := (sysRegs l).tiles[(0 : TileId)]

theorem wit_ScalarBinaryResults : (sysRegs []).runs 0 ∧ (tl []).busyS [1, 2, 3] = false ∧ (∀ op < 0x16, there (op + 1) (word 0 1 2 3 false 0) = true) ∧
    (tl []).busyS [1, 2] = false ∧ ∀ op < 0x16, there (op + 1) (word 0 1 2 0 true 0xFFFFFFFF) = true := ⟨rfl, by decide⟩
theorem wit_ScalarUnaryResults : (sysRegs []).runs 0 ∧ (∀ op ∈ [0x17, 0x18, 0x1D], there op (word 0 1 0 0 true 3) = true) ∧ (∀ op ∈ [0x19, 0x1A, 0x1B], there op (word 0 1 2 0 false 0) = true) ∧
    (tl []).busyS [1, 2] = false ∧ (tl []).run = some kern ∧ kern.seen ≤ kern.bound ∧ ∀ k ≤ 4, there 0x1C (word 0 1 0 0 true k) = true := ⟨rfl, by decide⟩
theorem wit_LoadResults : (sysRegs []).runs 0 ∧ (∀ op ∈ [0x20, 0x21, 0x22, 0x23, 0x24, 0x25, 0x26], there op (word 0 1 2 0 true 0) = true) ∧ (tl []).busyS [1, 2] = false ∧
    0x1EFFF8 % 8 = 0 ∧ 0x1EFFF8 + 8 ≤ 0x1F0000 ∧ ((tl [(2, 0x1EFFF8)]).sreg 2 + (0 : BitVec 32).signExtend 64).toNat = 0x1EFFF8 ∧ (tl []).marked 0x1EFFF8 8 = false := ⟨rfl, by decide⟩
theorem wit_StoreResults : (sysRegs []).runs 0 ∧ (∀ op ∈ [0x28, 0x29, 0x2A, 0x2B], there op (word 0 0 2 3 true 8) = true) ∧ (tl []).busyS [2, 3] = false ∧
    ((tl [(2, 0x1EFFF0)]).sreg 2 + (8 : BitVec 32).signExtend 64).toNat = 0x1EFFF8 := ⟨rfl, by decide⟩
/-- A tile on which an amoadd to s2 is outstanding. -/
def amoTile : Tile := { tileOf [] with amo := [(2, 8, 1)] }
/-- A misaligned address, the first beyond the kernel area, a marked block, and a register that an amoadd will write. -/
theorem wit_ScalarAccessFaults : (sysRegs []).runs 0 ∧ there 0x23 (word 0 1 2 0 true 4) = true ∧ (4 : Nat) % 8 ≠ 0 ∧ (tl []).busyS [1, 2] = false ∧
    ((tl [(2, 0x1F0000)]).sreg 2 + (0 : BitVec 32).signExtend 64).toNat = 0x1F0000 ∧ ({ tileOf [] with marks := [1] } : Tile).marked 64 8 = true ∧
    amoTile.busyS [1, 2, 3] = true ∧ there 0x01 (word 0 1 2 3 false 0) = true ∧ there 0x17 (word 0 2 0 0 true 0) = true ∧ amoTile.busyS [2] = true := ⟨rfl, by decide⟩
theorem wit_BranchCallResults : (sysRegs []).runs 0 ∧ (∀ op ∈ [0x30, 0x31, 0x32, 0x33, 0x34, 0x35], there op (word 0 0 2 3 true 0xFFFFFFFF) = true) ∧ (tl []).busyS [2, 3] = false ∧
    there 0x36 (word 0 0 0 0 true 1) = true ∧ there 0x37 (word 0 0 0 0 true 1) = true ∧ there 0x38 (word 0 0 0 0 false 0) = true ∧ there 0x3E (word 0 0 0 0 false 0) = true ∧
    ({ tileOf [] with ret := [4] } : Tile).ret = 4 :: [] := ⟨rfl, by decide⟩
/-- A loop of 0 and one of 3 iterations; a test that leaves and one that stays; the end of a body with iterations left, on its last, and elsewhere. -/
theorem wit_LoopResults : (sysRegs []).runs 0 ∧ there 0x39 (word 0 3 2 0 true 4) = true ∧ (word 0 3 2 0 true 4).d.toNat = (3 : Fin 4).val ∧ (tl []).busyS [2] = false ∧
    ((tl []).sreg 2).toNat % 2 ^ 32 = 0 ∧ ((tl [(2, 3)]).sreg 2).toNat % 2 ^ 32 ≠ 0 ∧ there 0x3A (word 0 0 2 0 false 0) = true ∧ there 0x3B (word 0 0 2 0 false 0) = true ∧
    decide ((tl []).sreg 2 = 0) = true ∧ decide ((tl [(2, 3)]).sreg 2 = 0) ≠ true ∧ ({ tileOf [] with loops := [⟨0, 8, 9, 2⟩] } : Tile).loops = ⟨0, 8, 9, 2⟩ :: [] ∧
    (⟨0, 8, 9, 2⟩ : LoopFrame).last = 9 ∧ 1 < (⟨0, 8, 9, 2⟩ : LoopFrame).left ∧ (⟨0, 8, 9, 1⟩ : LoopFrame).left ≤ 1 ∧ (⟨0, 8, 9, 2⟩ : LoopFrame).last ≠ 8 := ⟨rfl, by decide⟩
theorem test_loop_again : (got (exec (.dyNop 0 (word 0 0 0 0 false 0)) (coded 0x3E (word 0 0 0 0 false 0) (sysOf { tileOf [] with loops := [⟨0, 8, 9, 2⟩] }))) fun u =>
    (u.tiles[(0 : TileId)].pc, u.tiles[(0 : TileId)].lc[(0 : Fin 4)], u.tiles[(0 : TileId)].loops)) = some (8, 1, [⟨0, 8, 9, 1⟩]) := by decide
/-- A trap leaves tile 0 without a kernel. -/
theorem test_trap : (got (exec (.dyTrap 0 (word 0 0 0 0 true 77)) (coded 0x3D (word 0 0 0 0 true 77) (sysRegs []))) fun u =>
    (u.tiles[(0 : TileId)].run.isNone, u.tiles[(0 : TileId)].fInfo)) = some (true, 77 * 65536 + 5) := by decide +kernel
theorem wit_EndTrapResults : (tl []).run = some kern ∧ there 0x3D (word 0 0 0 0 true 77) = true ∧ there 0x3C (word 0 0 0 0 false 0) = true ∧ (tl []).mstl = none ∧ (tl []).mat = [] ∧
    (tl []).mv = [] ∧ (tl []).busyS [1] = false ∧ (tl []).staged = none ∧ (tl []).quar = .none ∧ ({ tileOf [] with mstl := some ⟨0, []⟩ } : Tile).mstl ≠ none := by decide
theorem wit_VectorLaneResults : (sysRegs []).runs 0 ∧ (tl []).busyV [1, 2, 3] = false ∧ (∀ op ∈ [0x40, 0x41, 0x42], there op (word 0 1 2 3 false 1) = true) ∧
    (∀ op ∈ [0x46, 0x47], there op (word 0 1 2 0 false 1) = true) ∧ (∀ op ∈ [0x44, 0x45, 0x48, 0x49, 0x4A, 0x4B, 0x4C, 0x4D], there op (word 4 1 2 3 false 0) = true) ∧
    there 0x5E (word 11 1 2 0 false 0) = true ∧ there 0x40 (word 8 1 2 3 false 0) = true ∧ there 0x40 ⟨true, 7, 5, 1, 2, 3, false, 0⟩ = true := ⟨rfl, by decide⟩
theorem wit_VectorMoveResults : (sysRegs []).runs 0 ∧ (tl []).busyV [1, 2, 3, 4] = false ∧ (tl []).busyS [2, 1] = false ∧ there 0x43 (word 8 1 2 3 false (4 * 2 ^ 27)) = true ∧
    there 0x4F (word 8 1 2 0 false 0) = true ∧ there 0x59 (word 8 1 2 3 false 0) = true ∧ there 0x5A (word 8 1 2 0 true 0xFFFFFFFF) = true ∧ there 0x58 ⟨true, 1, 8, 1, 2, 3, false, 0⟩ = true ∧
    there 0x51 (word 8 1 2 0 true 63) = true ∧ there 0x50 (word 11 1 2 0 true 511) = true ∧ there 0x5F (word 8 1 2 0 false 0) = true ∧ there 0x4E (word 8 1 2 0 false 0x0300) = true ∧
    there 0x4E (word 0 1 2 0 false 0x8301) = true := ⟨rfl, by decide⟩
theorem wit_ApproximationResults : (sysRegs []).runs 0 ∧ (tl []).busyV [1, 2] = false ∧ ∀ op ∈ [0x5B, 0x5C, 0x5D], there op (word 8 1 2 0 false 0) = true := ⟨rfl, by decide⟩
theorem wit_VectorMemoryResults : (sysRegs []).runs 0 ∧ there 0x52 (word 8 1 2 0 true 64) = true ∧ there 0x53 (word 8 0 1 2 true 64) = true ∧ (tl []).busyS [2] = false ∧ (tl []).busyV [1] = false ∧
    ((tl [(2, 0x1EFEC0)]).sreg 2 + (64 : BitVec 32).signExtend 64).toNat = 0x1EFF00 ∧ (∀ b < 256, 0x1EFF00 + b < 0x1F0000) ∧ (∀ b < 256, (tl []).marked (0x1EFF00 + b) 1 = false) ∧
    there 0x54 (word 8 1 2 3 false 0) = true ∧ there 0x55 (word 8 0 1 2 false (3 * 2 ^ 27)) = true ∧
    (∀ i < 64, let e := elemAddr 8 ((tl []).sreg 2).toNat (lane ((tl []).vreg 3) 32 i); e.1 + e.2 ≤ 0x1F0000 ∧ (tl []).marked e.1 e.2 = false) := ⟨rfl, by decide +kernel⟩
theorem wit_CompareReducePredicateResults : (sysRegs []).runs 0 ∧ (∀ k < 6, there 0x57 (word 8 7 2 3 false k) = true) ∧ (tl []).busyV [2, 3] = false ∧ (∀ k < 3, there 0x56 (word 0 1 2 0 false k) = true) ∧
    (tl []).busyS [1, 2] = false ∧ tyInt 0 = true ∧ (tl []).active (word 0 1 2 0 false 1) 0 255 = true ∧ (∀ op ∈ [0x80, 0x81, 0x82], there op (word 0 1 2 3 false 0) = true) ∧
    there 0x83 (word 0 1 2 0 false 0) = true ∧ there 0x84 (word 0 1 31 0 false 0) = true ∧ there 0x85 (word 8 31 2 0 false 0) = true := ⟨rfl, by decide⟩
/-- R95: vpfirst counts to at most 256. -/
theorem test_vpfirst : (got (exec (.dyVpfirst 0 (word 0 1 2 0 false 0)) (coded 0x84 (word 0 1 2 0 false 0) (sysRegs [(2, 300)]))) fun u => u.tiles[(0 : TileId)].pred 1) = some (BitVec.allOnes 256) := by decide +kernel
theorem test_vadd_saturates : (got (exec (.dyVadd 0 (word 0 1 2 3 false 1)) (coded 0x40 (word 0 1 2 3 false 1) (sysOf { tileOf [] with v := Vector.replicate 32 100 }))) fun u => lane (u.tiles[(0 : TileId)].vreg 1) 8 0) = some 127 ∧
    (got (exec (.dyVadd 0 (word 0 1 2 3 false 0)) (coded 0x40 (word 0 1 2 3 false 0) (sysOf { tileOf [] with v := Vector.replicate 32 100 }))) fun u => lane (u.tiles[(0 : TileId)].vreg 1) 8 0) = some 200 := by decide +kernel
/-- 1.5 × 2.0 = 3.0, and the sum of 2^24 and 1 rounds to even. -/
theorem test_f32 : (got (exec (.dyVmul 0 (word 8 1 2 3 false 0)) (coded 0x42 (word 8 1 2 3 false 0) (sysOf { tileOf [] with v := (Vector.replicate 32 0x3FC00000).set 3 0x40000000 }))) fun u =>
      lane (u.tiles[(0 : TileId)].vreg 1) 32 0) = some 0x40400000 ∧
    f32Add 0x4B800000 0x3F800000 = 0x4B800000 := by decide +kernel

/-! ### Witnesses: matrix, DMA, queues -/

def stat0 : Stationary := ⟨0, []⟩
def matTile : Tile := { tileOf [(2, 0x1000), (3, 128)] with st0 := some stat0, swapped := true }
theorem wit_MatrixIssueResults : (sysRegs []).runs 0 ∧ there 0x90 (word 0 0 2 0 false 0) = true ∧ (tl []).busyS [2] = false ∧ (tl []).mstl = none ∧ 0x1000 + statBytes 0 ≤ 0x1F0000 ∧
    (tl []).marked 0x1000 (statBytes 0) = false ∧ there 0x91 (word 0 0 0 0 false 0) = true ∧ there 0x92 (word 1 1 2 3 false 1) = true ∧ matTile.busyS [2, 3] = false ∧
    (matTile.sreg 3).toNat = 128 ∧ matTile.swapped = true ∧ matTile.st0 = some stat0 ∧ pairs stat0.t 1 = true ∧ (matTile.sreg 2).toNat % 256 = 0 ∧
    0x1000 + skewLines 1 128 * lineBytes 1 ≤ 0x1F0000 ∧ matTile.marked 0x1000 (skewLines 1 128 * lineBytes 1) = false ∧ there 0x94 (word 0 1 0 0 false 0) = true ∧ (tl []).mat = [] ∧
    there 0x95 (word 0 8 0 2 false 7) = true ∧ (tl []).busyV [0, 1, 2, 3, 4, 5, 6, 7] = false ∧ (tl []).marked 0 16384 = false ∧ pairs stat0.t 7 = false ∧ (tl []).swapped = false :=
  ⟨rfl, by decide⟩
/-- A macst of one row of I8 at 0x1000, its record at 0x2000 and its side list at 0x4000. -/
def macTile : Tile := { tileOf [(2, 0x1000), (3, 0x2000), (4, 0x4000)] with store := [(0x2804, 1)], mat := [.macst 0 0 0x1000 0x2000 0x4000] }
theorem wit_macst : there 0x93 (word 0 0 2 3 false (4 * 2 ^ 27)) = true ∧ macTile.busyS [2, 3, 4] = false ∧ macTile.marked 0x2000 0x840 = false ∧ (macTile.convRec 0x2000).rows = 1 ∧
    (macTile.convRec 0x2000).corrEn = false ∧ (∀ x ∈ macstRegions 0 0x1000 0x2000 0x4000 (macTile.convRec 0x2000), x.1 + x.2 ≤ 0x1F0000) ∧
    anyOverlap (macstRegions 0 0x1000 0x2000 0x4000 (macTile.convRec 0x2000)) = false := by decide
theorem wit_MatrixCompletions : ({ tileOf [] with mstl := some stat0 } : Tile).mstl = some stat0 ∧ ({ tileOf [] with activity := .ramping } : Tile).activity = .ramping ∧
    ({ tileOf [] with activity := .up } : Tile).activity = .up ∧ (∀ o ∈ (tl []).mat, o.streams = false) ∧
    ({ tileOf [] with mat := [.mmul 1 128 0 stat0 [] true false] } : Tile).mat = .mmul 1 128 0 stat0 [] true false :: [] ∧
    ({ tileOf [] with mv := [⟨0, 30, 2, [0, 0], []⟩] } : Tile).mv = ⟨0, 30, 2, [0, 0], []⟩ :: [] ∧ [(0 : BitVec 2048), 0].length = 2 ∧ 30 + 2 ≤ 32 := by decide +kernel
theorem wit_MacstCompletion : ((sysOf macTile).tiles[(0 : TileId)]).mat = .macst 0 0 0x1000 0x2000 0x4000 :: [] ∧ (macTile.convRec 0x2000).rows ≤ 128 ∧ macTile.run = some kern := by decide
/-- A DMA whose length is no multiple of 64 faults, and one of no rows only ends. -/
theorem wit_DmaIssueResults : (sysRegs []).runs 0 ∧ (5 : Fin 16).val = (word 0 5 2 3 false (4 * 2 ^ 27)).d.toNat ∧ there 0xA0 (word 0 5 2 3 false (4 * 2 ^ 27)) = true ∧
    there 0xA1 (word 0 5 2 3 false (4 * 2 ^ 27)) = true ∧ (tl []).busyS [2, 3, 4] = false ∧ (tl []).tags[(5 : Fin 16)] = none ∧
    (sysRegs []).tick.dmaCheck (vfOf 0) (dmaOf true (word 0 5 2 3 false (4 * 2 ^ 27)) (tl [(4, 63)])) = .fault .align ∧
    (sysRegs []).tick.dmaCheck (vfOf 0) (dmaOf true (word 0 5 2 3 false (4 * 2 ^ 27)) (tl [(4, 64)])) = .empty ∧ there 0xA2 (word 0 0 0 0 true 0x20) = true ∧
    (0x20 : BitVec 32).getLsbD 5 = true := ⟨rfl, by decide⟩

/-! ### A READY device with Stall 0 FRESH -/

def f0 : Fn := vfOf 0
def alloc0 : Alloc :=
  { base := 0x200000, units := 8, tier := .hbm, retain := false, cache := false, demote := false, place := 4, commons := false, groups := [0], peer := 0, exp := 0, lastUse := 0,
    dirty := [], zeroing := none, move := none, freeing := none, withdrawn := false, device := false, upTo := 0 }
def ring0 : Ring := { Ring.reset with en := true, drained := false, sqTail := 2 }
def host0 : HostFn := { HostFn.reset with bme := true, masked := 0, rings := HostFn.reset.rings.set 0 ring0 }
def cont0 : Container := { id := 1, digest := 5, step := 0, consts := 0x200000, kernels := [⟨3, 8, 16, 100⟩], code := [], charge := 0, unloading := false }
/-- The Churn runs, Stall 0 is FRESH with 16 MiB of HBM at 0x200000, ring 0 of its VF holds two descriptors, and slot 0 is open on row 0. -/
def live : State :=
  let s := ((((State.reset.setReg (.vfRing 0) 0x00 0x4400).setReg .mem 0x100 100000).setReg .mem 0x40 0).setReg .chn 0x2000 (0x80000000 + 900 * 0x2000)).setReg .chn 0x2004 4
  ({ s with stalls := s.stalls.set 0 { StallSt.reset with state := .fresh }, churn := { s.churn with running := true, num := 1, opened := [0] }, host := s.host.set f0 host0,
            mem := { s.mem with fns := s.mem.fns.set f0 { FnMem.reset with allocs := [alloc0] } },
            serving := s.serving.set 0 { Serving.reset with keep := { Retained.empty with containers := [cont0] } } } : State).modRow 0 fun r => { r with held := some 0, slot := some 0 }
/-- Little-endian fields by byte offset, as a descriptor, as an entry, and as a number. -/
def packed (l : List (Nat × Nat)) : Nat := l.foldl (fun a x => a + x.2 * 2 ^ (8 * x.1)) 0
def desc (l : List (Nat × Nat)) : Desc := BitVec.ofNat 1024 (packed l)
def entry (l : List (Nat × Nat)) : Entry := BitVec.ofNat 512 (packed l)

def takesB (s : State) (f : Fn) (r : RingId) (d : Desc) : Bool :=
  s.up && s.mayFetch f r && (s.ring f r).waiting.isEmpty && decide (d.toNat / 2 ^ 16 % 2 = 0) && s.host[f].held.isEmpty
theorem takes_of (s : State) (f : Fn) (r : RingId) (d : Desc) (h : takesB s f r d = true) : s.takes f r d := by
  simp only [takesB, Bool.and_eq_true, decide_eq_true_eq, List.isEmpty_iff] at h
  obtain ⟨⟨⟨⟨h1, h2⟩, h3⟩, h4⟩, h5⟩ := h
  exact ⟨h1, h2, h3, fun h => by omega, h5⟩
def passesB (s : State) (op : Nat) (f : Fn) (r : RingId) (d : Desc) : Bool :=
  takesB s f r d && (List.finRange 16).all (fun n => !decide (stallOf f = some n) || decide (s.stallState n = .fresh)) &&
    (match bodyFields op with | some l => (s.nextCmd op f r d).reservedZero l | none => false) && (decide (r = 0) || (!adminOp op && decide (op ≠ 0x32))) && (memOp op || decide (f ≠ pf0))
theorem passes_of (s : State) (op : Nat) (f : Fn) (r : RingId) (d : Desc) (h : passesB s op f r d = true) : s.passes op f r d := by
  simp only [passesB, Bool.and_eq_true, decide_eq_true_eq, List.all_eq_true, List.mem_finRange, forall_const, Bool.or_eq_true, Bool.not_eq_true', decide_eq_false_iff_not] at h
  obtain ⟨⟨⟨⟨h1, h5⟩, h6⟩, h7⟩, h8⟩ := h
  refine ⟨takes_of s f r d h1, fun n hn => ?_, ?_, fun ha => ?_, fun hm => ?_⟩
  · rcases h5 n with h | h
    · exact absurd hn h
    · exact h
  · cases hb : bodyFields op with
    | none => simp [hb] at h6
    | some l => exact ⟨l, rfl, by simpa [hb] using h6⟩
  · rcases h7 with h | h
    · exact h
    · rcases ha with ha | ha
      · simp [ha] at h
      · simp [ha] at h
  · rcases h8 with h | h
    · simp [hm] at h
    · exact h
/-- What the descriptor names can be read and written at once, too. -/
def acceptsB (s : State) (op : Nat) (f : Fn) (r : RingId) (d : Desc) : Bool := passesB s op f r d && (s.fetched f r).cmdReady (s.nextCmd op f r d)
theorem accepts_of (s : State) (op : Nat) (f : Fn) (r : RingId) (d : Desc) (h : acceptsB s op f r d = true) : s.accepts op f r d := by
  simp only [acceptsB, Bool.and_eq_true] at h
  exact ⟨passes_of s op f r d h.1, h.2⟩

def req0 : Request :=
  { cmd := ⟨f0, 0, 0, desc [(0, 1), (4, 7)]⟩, tag := 7, seq := 0, dispatch := false, program := 0, client := 0, adapter := none, home := 0, admitAt := 0, work := 0x200000, qtokCap := 16,
    outAddr := 0x210000, outBytes := 4096, maxNew := 16, tokOut := 0, maskAddr := 0, filter := 0, temp := 0, topK := 0, seed := 0, sample := false, stage := 7, phase := .prompt, notes := 0,
    wide := false, retried := false, failed := none, cancelled := false, waitSlots := [], promptLen := 0, prefixLen := 0, promptAt := 0, pfx := 0, pos := 0, maxOut := 0, step := 0, last := 0, ready := false,
    pages := [], reserve := 0, handle := none, builder := false, firstUs := 0, outDone := 0, heldText := [], gstate := 0 }
def batch0 : Batch :=
  { num := 1, die := 0, kind := .dispatch 7, roots := [(⟨3, [], 1⟩, 0xFFFF)], retry := 0, wide := false, waiting := true, ending := none, popped := [], served := [], again := false, dead := [], rows := [], pins := none }
def item0 : Item := ⟨3, [5], 1⟩
def qe (e : Entry) : QEntry := { e, tag := e.setWidth 32, since := 0, note := 0, poison := false }
/-- `live` with tile 0 as given, and with Stall 0's serving state changed. -/
def liveT (t : Tile) : State := live.modTile 0 fun _ => t
def liveV (g : Serving → Serving) : State := live.modSrv 0 g

/-- A DMA of two rows of 64 bytes, in and out. -/
def dma (inward : Bool) : Dma := { inward, skew := false, t := 0, ts := 0x1000, ga := 0x200000, len := 64, rows := 2, stride := 256, put := 0 }
def dmaState (inward : Bool) : State := liveT { tileOf [] with tags := Tile.reset.tags.set 5 (some (dma inward)) }
theorem wit_DmaCompletions : ∀ i : Bool, (dmaState i).tiles[(0 : TileId)].tags[(5 : Fin 16)] = some (dma i) ∧ (dmaState i).tiles[(0 : TileId)].owner = some 0 ∧ (dma i).len % 64 = 0 ∧
    (dmaState i).tick.canRead f0 (dma i).ranges = true ∧ (dmaState i).tick.txnBusy 0 (TxnKind.dma 0 5) = false ∧
    (dma i).pieces.length = 2 ∧ (∀ p ∈ (dma i).pieces, live.allocAt f0 p.dst = some alloc0) ∧ alloc0.tier = .hbm ∧ alloc0.move = none ∧ alloc0.upTo = 0 ∧
    ∀ k < 2, (((dmaState i).serving[(0 : StallId)]).kvMasked (0x200000 + k * 256 + 64 * 0)) = false := by decide +kernel
theorem wit_dma_passes : liveT (tileOf []) |>.tick.dmaCheck f0 (dma true) |> (· = .ok) := by decide +kernel
/-- R99: the second row of a dmain comes from STRIDE further on and lies behind the first. -/
theorem test_dmain : (got (exec (.dmaDone 0 5) ((dmaState true).writeMem f0 0x200100 [0xAB])) fun u => (u.tiles[(0 : TileId)].byte 0x1040, u.tiles[(0 : TileId)].tags[(5 : Fin 16)])) =
    some (0xAB, none) := by decide +kernel
theorem wit_MemoryWriteReads : live.allocAt f0 0x20FFFE = some alloc0 ∧ alloc0.tier = .hbm ∧ (0x20FFFE - alloc0.base) % 65536 + [1, 2].length ≤ 65536 ∧ 0x20FFFE + 2 ≤ commonsBase := by decide +kernel
theorem test_memory : ((live.writeMem f0 0x20FFFE [1, 2]).byteAt f0 0x20FFFF, (live.writeMem f0 0x20FFFE [1, 2]).byteAt f0 0x210000, (live.writeMem f0 0x20FFFE [1, 2]).byteAt (vfOf 1) 0x20FFFF) = (2, 0, 0) ∧
    (live.writeMem f0 0x20FFFE [1, 0]).mem.cells.length = 1 ∧ (live.writeMem f0 0x20FFFE [1, 2]).memOk = true := by decide +kernel
def amoState : State := liveT { tileOf [] with amo := [(2, 0x200008, 5)] }
theorem wit_AmoaddResults : (liveT (tileOf [])).runs 0 ∧ (2 : Fin 32).val = (word 0 2 3 4 false 0).d.toNat ∧ there 0xC3 (word 0 2 3 4 false 0) = true ∧ (tl []).busyS [2, 3, 4] = false ∧
    (4 : Nat) % 8 ≠ 0 ∧ (liveT (tileOf [])).tick.writable f0 0x200008 8 = true ∧ (liveT (tileOf [])).tick.poisoned f0 0x200008 8 = false ∧ (liveT (tileOf [])).importAt 0 0x200008 = none ∧
    amoState.tiles[(0 : TileId)].amo = [(2, 0x200008, 5)] ∧ amoState.tick.txnBusy 0 (TxnKind.amoOf 0 2) = false := ⟨rfl, by decide +kernel⟩
theorem test_amoadd : (got (exec (.amoaddDone 0 2) (amoState.writeNat f0 0x200008 8 (2 ^ 64 - 2))) fun u => ((u.tiles[(0 : TileId)].sreg 2).toNat, u.readNat f0 0x200008 8)) = some (2 ^ 64 - 2, 3) := by
  decide +kernel
theorem wit_SortSelectResults : (sysRegs []).runs 0 ∧ there 0xB0 (word 8 1 2 0 false 0) = true ∧ there 0xB1 (word 8 1 2 3 false (4 * 2 ^ 27)) = true ∧ (tl []).busyV [1, 2, 3, 4] = false ∧
    there 0xB2 (word 8 1 2 3 false (4 * 2 ^ 27)) = true ∧ there 0xB3 (word 8 1 2 3 false (4 * 2 ^ 27)) = true ∧ (tl []).busyS [1, 2, 3, 4] = false ∧ (tl []).busyV workRegs = false ∧
    (let c := ((tl [(4, 65536 + 1024 * 2 ^ 32)]).sreg 4).toNat; c % 2 ^ 17 = 65536 ∧ c / 2 ^ 32 % 2 ^ 11 = 1024) ∧ 0x1000 + 65536 * 4 ≤ 0x80000 ∧ 0x80000 + recordBytes 1024 ≤ 0x1F0000 ∧
    (let c := ((tl [(4, 65537 + 1024 * 2 ^ 32)]).sreg 4).toNat; 65536 < c % 2 ^ 17) ∧ (tl []).marked 0x1000 64 = false ∧
    (let c := ((tl [(4, 1024 + 1024 * 2 ^ 16 + 2 * 2 ^ 32)]).sreg 4).toNat; c % 2 ^ 11 = 1024 ∧ c / 2 ^ 16 % 2 ^ 11 = 1024 ∧ c / 2 ^ 32 % 2 ^ 9 = 2) ∧
    0x1000 + 2 * recordBytes 1024 ≤ 0x80000 := ⟨rfl, by decide +kernel⟩
/-- R217, R218: the greater value first, ties by index, NaN last. -/
theorem test_order : precedes 8 (0x40000000, 5) (0x3F800000, 1) = true ∧ precedes 8 (0x3F800000, 1) (0x3F800000, 2) = true ∧ precedes 8 (0xFF800000, 9) (0x7FC00000, 0) = true ∧
    precedes 4 (1, 3) (0xFFFFFFFF, 0) = true := by decide
theorem wit_QueueResults : (liveT (tileOf [])).tiles[(0 : TileId)].run = some kern ∧ (tl []).busyS [1, 2] = false ∧ there 0xC0 (word 0 1 2 0 false 3) = true ∧
    (((liveT (tileOf [])).serving[(0 : StallId)]).requests.any fun x => x.tag = 7 && x.cancelled) = false ∧ (liveT (tileOf [])).tick.queueFull 0 0 3 = false ∧
    there 0xC1 (word 0 1 2 0 false 4) = true ∧ ((liveT (tileOf [])).serving[(0 : StallId)]).queue 0 4 = [] ∧
    ((liveV fun v => v.setQueue 0 4 [qe 7]).serving[(0 : StallId)]).queue 0 4 = qe 7 :: [] := by decide +kernel
theorem test_qpop : (got (exec (.dyQpop 0 (word 0 1 2 0 false 4)) (coded 0xC1 (word 0 1 2 0 false 4) ((liveT (tileOf [(2, 0x40)])).modSrv 0 fun v => v.setQueue 0 4 [qe 0x1234]))) fun u =>
    (u.tiles[(0 : TileId)].byte 0x41, (u.tiles[(0 : TileId)].sreg 1).toNat, (u.serving[(0 : StallId)]).queue 0 4)) = some (0x12, 0, []) := by decide +kernel
def spawner : State := (liveV fun v => { v with batches := [batch0], requests := [{ req0 with dispatch := true }] }).modTile 0 fun _ => { tileOf [] with run := some { kern with cont := 1 } }
theorem wit_SpawnFenceWaitResults : spawner.tiles[(0 : TileId)].run = some { kern with cont := 1 } ∧ there 0xC2 (word 0 9 0 0 false 0) = true ∧ (tl []).busyS (9 :: argRegs) = false ∧
    ((spawner.serving[(0 : StallId)]).keep.containers.find? fun c => c.id = 1) = some cont0 ∧ cont0.kernels[0]? = some ⟨3, 8, 16, 100⟩ ∧ cont0.unloading = false ∧
    (spawner.serving[(0 : StallId)]).spawnDrops 1 = false ∧ spawner.tick.boundTooLong 0 3 = false ∧ ((spawner.serving[(0 : StallId)]).segment 0).length < 32 ∧
    there 0xC4 (word 0 0 0 0 false 0) = true ∧ (tl []).mstl = none ∧ (tl []).mat = [] ∧ (tl []).mv = [] ∧ (∀ i : Fin 16, (tl []).tags[i] = none) ∧ macTile.mat ≠ [] ∧
    there 0xC5 (word 0 0 0 0 false 7) = true ∧ (word 0 0 0 0 false 7).low.getLsbD 0 = true := by decide +kernel
theorem test_spawn : (got (exec (.dySpawn 0 (word 0 9 0 0 false 0)) (coded 0xC2 (word 0 9 0 0 false 0) spawner)) fun u => (u.tiles[(0 : TileId)].staged.isSome, (u.tiles[(0 : TileId)].sreg 9).toNat)) = some (true, 0) := by decide +kernel

/-! ### Witnesses: tiles' events, registers, resets, Stalls, Churn -/

def idleState : State := (liveV fun v => { v.setSegment 0 [item0] with batches := [batch0] }).modTile 0 fun _ => Tile.reset
theorem wit_TileEventResults : idleState.up = true ∧ idleState.tileSlot 0 = some 0 ∧ (idleState.schedEntry 0).stall = 0 ∧ idleState.tiles[(0 : TileId)].idle = true ∧
    idleState.tiles[(0 : TileId)].quar = .none ∧ (idleState.tick.findWork 0 0 (idleState.tick.cclkLeft (idleState.slotEnd 0)) []).isSome = true ∧ ((idleState.serving[(0 : StallId)]).kernel? 3).isSome = true ∧
    (liveT (tileOf [])).tiles[(0 : TileId)].run = some kern ∧ (liveT (tileOf [])).tick.boundAt kern ≤ live.slotEnd 0 ∧ (tl []).ce + 1 ≤ live.ceLimit ∧ live.ceLimit < (tl []).ce + 256 ∧
    (liveT (tileOf [])).tileSlot 0 = some 0 ∧ ({ Tile.reset with quar := .quar 1 } : Tile).quar = .quar 1 ∧ ({ Tile.reset with quar := .selftest 1 } : Tile).quar = .selftest 1 ∧ Tile.reset.staged = none := by decide +kernel
theorem test_take_item : (got (exec (.tileTakeItem [0]) idleState) fun u => (u.tiles[(0 : TileId)].pc, (u.tiles[(0 : TileId)].sreg 1).toNat, (u.tiles[(0 : TileId)].sreg 30).toNat)) = some (8, 5, 0x200000) := by
  decide +kernel
theorem test_bound : (got (exec (.kernelBoundReached 0) (liveT (tileOf []))) fun u => (u.tiles[(0 : TileId)].run.isNone, u.tiles[(0 : TileId)].fInfo)) = some (true, 0x410) := by decide +kernel

def lockedAll : State := live.setReg .glb 0x008 0x3FF
/-- An offset outside every window, byte enables that do not cover a word, a reserved offset, a locked register and a class Q register of a unit that runs. -/
theorem wit_RegisterWriteRejections : live.up = true ∧ live.mgt.linkUp = true ∧ live.barOpen pf0 = true ∧ decodeOff pf0 (barOff pf0 0xFFFFFFC) = none ∧
    decodeOff pf0 (barOff pf0 0x30040) = some (.mem, 0x040) ∧ decodeOff pf0 (barOff pf0 0x0FC) = some (.glb, 0x0FC) ∧ regAt .glb 0x0FC = none ∧
    (∃ r, regAt .mem 0x040 = some r ∧ lockedAll.locked .mem r = true ∧ live.locked .mem r = false ∧ r.kind = .rw ∧ r.cls = .q ∧ live.unitStopped .mem 0x040 0x10 = false) :=
  ⟨by decide, by decide, by decide, by decide, by decide, by decide, by decide, _, rfl, by decide +kernel⟩
theorem test_rejection : (got (exec (.registerWrite pf0 0xFFFFFFC ⟨0xF, 0⟩ []) live) fun u => (u.host[pf0].rejCause, u.host[pf0].rejCount, u.host[pf0].rejAddr)) = some (3, 1, 0xFFFFFFC) ∧
    (got (exec (.registerWrite pf0 0x30040 ⟨0xF, 0x10⟩ []) lockedAll) fun u => (u.host[pf0].rejCause, u.reg .mem 0x040)) = some (1, 0) := by decide +kernel
/-- A class L register, a class T register with the Churn running, and a class Q register whose Stall is DRY. -/
theorem wit_RegisterWriteResults : live.up = true ∧ live.barOpen pf0 = true ∧
    (decodeOff pf0 (barOff pf0 0xA0008) = some (.sec, 0x008) ∧ ∃ r, regAt .sec 0x008 = some r ∧ live.locked .sec r = false ∧ r.kind = .rw ∧ r.cls = .l ∧ rctrlAt .sec 0x008 = none ∧ splitAt .sec 0x008 = none) ∧
    (decodeOff pf0 (barOff pf0 0x20004) = some (.chn, 0x004) ∧ ∃ r, regAt .chn 0x004 = some r ∧ live.locked .chn r = false ∧ r.kind = .rw ∧ r.cls = .t ∧ live.halted = false ∧ live.unitStopped .chn 0x004 5 = false) ∧
    (decodeOff pf0 (barOff pf0 0x11010) = some (.stl 1, 0x010) ∧ ∃ r, regAt (.stl 1) 0x010 = some r ∧ live.locked (.stl 1) r = false ∧ r.kind = .rw ∧ r.cls = .q ∧ live.unitStopped (.stl 1) 0x010 5 = true) :=
  ⟨by decide, by decide, ⟨by decide, _, rfl, by decide +kernel⟩, ⟨by decide, _, rfl, by decide +kernel⟩, ⟨by decide, _, rfl, by decide +kernel⟩⟩
/-- A class T value waits for the boundary, and is what a read answers. -/
theorem test_class_t : (got (exec (.registerWrite pf0 0x20004 ⟨0xF, 5⟩ []) live) fun u => (u.reg .chn 0x004, u.regWritten .chn 0x004)) = some (7, 5) ∧
    (got (exec (.registerWrite pf0 0x20004 ⟨0xF, 5⟩ []) State.reset) fun u => u.reg .chn 0x004) = some 5 := by decide +kernel
theorem wit_StatusLockSplitResults : live.up = true ∧ live.mgt.linkUp = true ∧ live.barOpen pf0 = true ∧ live.barOpen f0 = true ∧
    (∃ r, regAt .mgt 0x000 = some r ∧ r.kind = .status ∧ live.locked .mgt r = false) ∧ decodeOff pf0 (barOff pf0 0xB0000) = some (.mgt, 0x000) ∧ statAt .mgt 0x000 = some .mgt ∧
    (live.stat .mgt).stamp ≤ live.now ∧ decodeOff pf0 (barOff pf0 0x004) = some (.glb, 0x004) ∧ statAt .glb 0x004 = some .glb ∧ (live.stat .glb).seq = 1 ∧
    (∃ r, regAt .glb 0x004 = some r ∧ r.kind = .status ∧ (0x01000001 &&& r.mask).getLsbD 0 = true) ∧ decodeOff f0 (barOff f0 0x004) = some (.vfId 0, 0x004) ∧ statAt (.vfId 0) 0x004 = some (.vf 0) ∧
    decodeOff pf0 (barOff pf0 0x20010) = some (.chn, 0x010) ∧ lowHalf .chn 0x010 = true ∧ lowHalf .chn 0x014 = false ∧ decodeOff pf0 (barOff pf0 0x30010) = some (.mem, 0x010) ∧
    splitAt .mem 0x010 = some (0x010, false) ∧ splitAt .mem 0x014 = some (0x010, true) ∧ (∃ r, regAt .mem 0x010 = some r ∧ live.locked .mem r = false ∧ r.kind = .rw ∧ r.cls ≠ .q) :=
  ⟨by decide, by decide, by decide, by decide, ⟨_, rfl, by decide +kernel⟩, by decide, by decide, by decide, by decide, by decide, by decide, ⟨_, rfl, by decide +kernel⟩, by decide +kernel⟩
theorem test_status_clear : (got (exec (.statusRegisterClear pf0 0xB0000 0x01000001 0 none) State.reset) fun u => (u.stat .mgt).bits) = some 0 ∧
    (got (exec (.statusRegisterClear pf0 0xB0000 0x02000001 0 none) State.reset) fun u => (u.stat .mgt).bits) = some 1 ∧
    (got (exec (.statusRegisterClear pf0 0xB0000 0x01000001 1 none) State.reset) fun u => ((u.stat .mgt).bits, (u.stat .mgt).seq)) = some (1, 2) := by decide +kernel
theorem test_glb_lock : (got (exec (.glbLockWrite 2) (State.reset.setReg .glb 0x008 1)) fun u => u.reg .glb 0x008) = some 3 := by decide +kernel
theorem wit_WarmResetResults : live.mgt.stage = 9 ∧ live.power.commit = none ∧ live.mgt.linkUp = true ∧ (live.reg .mgt 0x008).getLsbD 1 = false ∧
    ((live.setReg .mgt 0x008 7).reg .mgt 0x008).getLsbD 1 = true := by decide +kernel
theorem test_warm_reset : (got (exec .flrPf0 live) fun u => (u.mgt.stage, u.stallState 0, u.churn.running)) = some (2, .dry, false) := by decide +kernel
theorem wit_StallResetResults : live.up = true ∧ (1 : BitVec 16).getLsbD (0 : StallId).val = true ∧ (live.serving[(0 : StallId)]).resetting = false ∧ live.sec.idOk = true ∧
    (live.serving[(1 : StallId)]).requests = [] ∧ (live.serving[(1 : StallId)]).tblCmds = [] ∧ (live.serving[(1 : StallId)]).retires = [] ∧ live.slotsOf 1 = [] := by decide +kernel
theorem test_stall_reset : (got (exec (.glbResetStall 1) live) fun u => ((u.ring f0 0).en, (u.serving[(0 : StallId)]).resetting)) = some (false, true) := by decide +kernel
def stage (k : Nat) : State := State.reset.modMgt fun m => { m with stage := k, done8 := false }
def phase (k : Fin 9) (failed : List TileId) : PhaseOutcome := { phase := k, pass := true, failed }
theorem wit_StartupPhaseResults : (stage 1).power.commit = none ∧ (phase 1 []).pass = true ∧ (stage 1).mgt.stage = 1 ∧ (stage 1).power.vstby = true ∧ (stage 2).mgt.warm = false ∧ (stage 2).power.steps = 8 ∧
    ((stage 4).modSec fun x => { x with bundleA := factoryBundle }).sec.running ≠ [] ∧ (3 : TileId) ∈ (phase 6 [3]).failed ∧ (stage 7).mgt.done8 = false ∧ (stage 8).mgt.done7 = true ∧
    (stage 8).power.vres ≤ (stage 8).power.bankV ∧ ((stage 5).modSec fun x => { x with trial := true }).sec.trial = true := by decide +kernel
theorem test_ready : (got (exec (.startupPhaseDone (phase 8 [])) (stage 8)) fun u => u.mgt.stage) = some 9 ∧
    (got (exec (.startupPhaseDone (phase 6 [3])) (stage 6)) fun u => (u.mgt.stage, u.tiles[(3 : TileId)].quar)) = some (7, .quar 5) := by decide +kernel
def image0 : Image := { slot := 0, gen := 0, good := true, key := 1, allocs := [], secs := [], cells := [], marks := [], keep := Retained.empty, saves := [], step := 0 }
/-- Stall 1 with image 0, in a given state. -/
def withImage (st : StallState) (step : StallStep) : State :=
  let s := (State.reset.setReg .mem 0x044 0x01010101).setReg .mem 0x140 100000
  { s with stalls := s.stalls.set 1 { StallSt.reset with state := st, step }, mem := { s.mem with images := [image0] } }
theorem wit_FreshenResults : (withImage .dry .idle).up = true ∧ (withImage .dry .idle).stallState 1 = .dry ∧ ((withImage .dry .idle).tick.setStall 1 .freshening .loading).resourcesOk 1 = true ∧
    (withImage .dry .idle).imageOf 1 = some image0 ∧ image0.good = true ∧ live.stallState 0 ≠ .dry ∧ ((withImage .freshening .loading).stalls[(1 : StallId)]).step = .loading ∧
    (withImage .freshening .loading).imageOf 1 = some image0 ∧ (withImage .freshening .loaded).stallState 1 = .freshening ∧
    ((withImage .freshening (.cleanup .poison)).stalls[(1 : StallId)]).step = .cleanup .poison := by decide +kernel
theorem test_freshen : (got (exec (.freshen 1) (withImage .dry .idle)) fun u => (u.stallState 1, (u.stalls[(1 : StallId)]).step)) = some (.freshening, .loading) ∧
    (got (exec (.freshen 0) live) fun u => (u.stallState 0, (u.stalls[(0 : StallId)]).last)) = some (.fresh, .noStall) := by decide +kernel
theorem wit_DryingResults : live.up = true ∧ live.stallState 0 = .fresh ∧ live.stallState 1 ≠ .fresh ∧ ((withImage .drying (.draining 0)).stalls[(1 : StallId)]).step = .draining 0 ∧
    ((withImage .drying .saving).stalls[(1 : StallId)]).step = .saving ∧ (∀ r : RowId, ((withImage .drying .saving).churn.rows[r]).switching = false) ∧
    ((withImage .drying .writingBack).stalls[(1 : StallId)]).step = .writingBack ∧ ((withImage .drying .scrubbing).stalls[(1 : StallId)]).step = .scrubbing := by decide +kernel
theorem test_drain : (got (exec (.dryDrain 0) live) fun u => (u.stallState 0, (u.stalls[(0 : StallId)]).step)) = some (.drying, .draining 8) ∧
    (got (exec (.dryScrubDone 1) (withImage .drying .scrubbing)) fun u => (u.stallState 1, (u.stalls[(1 : StallId)]).last)) = some (.dry, .ok) := by decide +kernel
def sample0 : Sample := { vmin := 4700, vmax := 4900 }
theorem wit_ChurnResults : State.reset.up = true ∧ State.reset.mgt.linkUp = true ∧ State.reset.churn.running = false ∧ live.churn.running = true ∧ live.churn.halting = false ∧
    (live.modChurn fun c => { c with halting := true }).churn.halting = true := by decide +kernel
theorem test_boundary : (live.boundary sample0).churn.num = 2 ∧ (live.boundary sample0).churn.running = true ∧ (live.boundary sample0).now = live.boundaryDue := by decide +kernel
/-- Before slot 0 opens, its row ready or in a switch. -/
def opening (ready : Bool) : State := (live.modChurn fun c => { c with opened := [] }).modRow 0 fun r => { r with slot := none, switching := !ready, incoming := some 0, ballast := true }
theorem wit_SlotTurnResults : (opening true).churn.running = true ∧ (opening true).entryLive 0 = true ∧ (opening true).churn.opened.contains 0 = false ∧ (opening true).churn.late.contains 0 = false ∧
    (opening true).now + 1 < (opening true).slotEnd 0 ∧ (∀ x ∈ (opening true).openList, max ((opening true).now + 1) ((opening true).slotStart 0) < (opening true).slotEnd x) ∧
    (opening true).slotReady 0 = true ∧ (opening false).slotReady 0 = false ∧ (live.churn.rows[(0 : RowId)]).slot = some 0 ∧ ((opening false).churn.rows[(0 : RowId)]).switching = true ∧
    (opening false).rowIdle 0 = true ∧ (opening false).churn.late = [] ∧ ((opening false).churn.rows[(0 : RowId)]).queued = none ∧
    (live.setReg .chn 0x100 0xFF).wheelOwner (mapGet 0 live.churn.turns (turnKey (.slice 0)) - 272) = .noOne ∧ live.wheelOwner 1 = .stall 1 ∧ live.works 1 = false ∧ live.stallState 1 = .dry ∧
    live.wheelOwner (mapGet 0 live.churn.turns (turnKey (.slice 0))) = .stall 0 ∧ live.works 0 = true ∧ live.halted = false ∧
    live.churn.boundaryAt + live.churn.cturn * 256 < live.boundaryDue := by decide +kernel
theorem test_slot_opens : (got (exec (.slotOpen 0) (opening true)) fun u => ((u.churn.rows[(0 : RowId)]).slot, u.churn.opened)) = some (some 0, [0]) ∧
    (got (exec (.slotOpen 0) (opening false)) fun u => ((u.churn.rows[(0 : RowId)]).slot, u.churn.late)) = some (none, [0]) ∧
    (got (exec (.slotEnd 0) live) fun u => ((u.churn.rows[(0 : RowId)]).slot, u.churn.ended)) = some (none, [0]) := by decide +kernel

/-! ### Witnesses: memory, flash, host link, errors, fabric -/

def dryLive : State := live.modStall 0 fun x => { x with state := .dry }
theorem wit_RingCommandChecks : State.reset.mayFetch f0 0 = false ∧ State.reset.up = true ∧ takesB dryLive f0 0 (desc []) = true ∧ dryLive.stallState 0 = .dry ∧ takesB live f0 0 (desc []) = true ∧
    (∀ n, stallOf f0 = some n → live.stallState n = .fresh) ∧ bodyFields 0x41 = some [(0x10, 8)] ∧ (live.nextCmd 0x41 f0 0 (desc [(0x20, 1)])).reservedZero [(0x10, 8)] = false ∧
    adminOp 0x08 = true ∧ memOp 0x01 = false ∧ takesB ((live.modHost f0 fun h => { h with rings := h.rings.set 3 ring0 }).setReg (.vfRing 0) 0xC0 0x4400) f0 3 (desc []) = true := by decide +kernel
/-- The completion entry that a command sends first: its status and results. -/
def reply (o : Out) : Option (Code × Nat × Nat) :=
  (got o fun u => u.sent.findSome? fun m => match m with | .entry _ _ _ e => some (e.status, e.result0.toNat, e.result1.toNat) | _ => none).join
theorem test_ring_checks : reply (exec (.memFree f0 0 (desc [])) dryLive) = some (.noStall, 0, 0) ∧ reply (exec (.memFree f0 0 (desc [(0x20, 1)])) live) = some (.badDesc, 0, 0) := by decide +kernel
def allocD : Desc := desc [(0x10, 0x200000)]
theorem base_found (s : State) (f : Fn) (c : Bool) (n : Nat)
    (h : (((s.mem.fns[f]).allocs.filter fun a => a.commons = c).map fun a => a.base / unitBytes + a.units).any (placeFits ((s.mem.fns[f]).allocs.filter fun a => a.commons = c) (windowOf c) n) = true) :
    ∃ base, s.chooseBase f c n = some base := by
  obtain ⟨u, hu, hp⟩ := List.any_eq_true.mp h
  have : (s.chooseBase f c n).isSome = true := by
    simp only [State.chooseBase, Option.isSome_map, List.find?_isSome]
    exact ⟨u, List.mem_cons_of_mem _ (List.mem_cons_of_mem _ hu), hp⟩
  exact Option.isSome_iff_exists.mp this
theorem wit_MemoryCommandResults : live.accepts 0x40 f0 0 allocD ∧ (live.nextCmd 0x40 f0 0 allocD).allocBad = false ∧ (live.nextCmd 0x40 f0 0 (desc [])).allocBad = true ∧
    (live.fetched f0 0).allocFits f0 ((live.fetched f0 0).newAlloc (live.nextCmd 0x40 f0 0 allocD)) = true ∧ (∃ base, (live.fetched f0 0).chooseBase f0 false 1 = some base) ∧
    (live.fetched f0 0).allocFits f0 ((live.fetched f0 0).newAlloc (live.nextCmd 0x40 f0 0 (desc [(0x10, 2 ^ 40)]))) = false :=
  ⟨accepts_of _ _ _ _ _ (by decide +kernel), by decide +kernel, by decide +kernel, by decide +kernel, base_found _ _ _ _ (by decide +kernel), by decide +kernel⟩
theorem wit_memory_commands : acceptsB live 0x41 f0 0 (desc [(0x10, 0x200000)]) = true ∧ (live.mem.fns[f0]).named 0x200000 = some alloc0 ∧ (live.mem.fns[f0]).named 0 = none ∧ alloc0.move = none ∧
    (live.mem.fns[f0]).syncs = [] ∧ alloc0.top ≤ commonsBase ∧ acceptsB live 0x42 f0 0 (desc [(0x10, 0x200000), (0x18, 64)]) = true ∧
    ((live.fetched f0 0).inAllocs f0 (fun _ => true) 4097 0x200000 64) = true ∧ acceptsB live 0x43 f0 0 (desc [(0x10, 0x200000), (0x18, 1)]) = true ∧
    (live.fetched f0 0).beginMove f0 alloc0 (tierOf 1) 0 (some (live.nextCmd 0x43 f0 0 (desc [(0x10, 0x200000), (0x18, 1)]))) = none ∧
    acceptsB live 0x44 f0 0 (desc [(0x10, 0x1000), (0x18, 0x200000), (0x20, 64)]) = true ∧ (live.fetched f0 0).inOne f0 0x200000 64 = true ∧ (live.fetched f0 0).writable f0 0x200000 64 = true ∧
    acceptsB live 0x46 f0 0 (desc [(0x10, 0x200000), (0x18, 2)]) = true ∧ acceptsB live 0x47 f0 0 (desc [(0x10, 0)]) = true ∧ acceptsB live 0x48 f0 0 (desc [(0x10, 0x200040)]) = true ∧
    0x200040 % 64 = 0 ∧ (live.fetched f0 0).writable f0 0x200040 64 = true := by decide +kernel
theorem wit_move_goes : (live.setReg .mem 0x104 100000 |>.fetched f0 0).beginMove f0 alloc0 (tierOf 1) 0 none ≠ none := by decide +kernel
theorem test_mem_free : reply (exec (.memFree f0 0 (desc [(0x10, 0x200000)])) live) = some (.ok, 0, 0) ∧
    (got (exec (.memFree f0 0 (desc [(0x10, 0x200000)])) (live.writeMem f0 0x200000 [9])) fun u => u.byteAt f0 0x200000) = some 0 := by decide +kernel
theorem test_mem_export : reply (exec (.memUnexport f0 0 (desc [(0x10, 0)])) live) = some (.badDesc, 0, 0) := by decide +kernel
/-- A command of ring 0 that has started: the first of VF 0. -/
def cmd0 (op : Nat) : Cmd := ⟨f0, 0, 0, desc [(0, op), (4, 7)]⟩
def busy : State := live.modRing f0 0 fun g => { g with running := [0], nextOrd := 1 }
def sync0 : SyncRun := { cmd := cmd0 0x42, lo := 0x200000, hi := 0x200040, left := [] }
def stage0 : Staged := { base := 0x200000, page := 0, dirty := true, filling := true }
theorem wit_MemoryEventResults : busy.up = true ∧ (busy.ring f0 0).running.contains (cmd0 0x40).ord = true ∧ busy.hostOpen f0 = true ∧ busy.host[f0].held = [] ∧
    ((busy.modAllocAt f0 0x200000 fun a => { a with zeroing := some (cmd0 0x40) }).mem.fns[f0]).allocs.find? (fun y => y.base = 0x200000) = some { alloc0 with zeroing := some (cmd0 0x40) } ∧
    ((busy.modFnMem f0 fun m => { m with syncs := [sync0] }).mem.fns[f0]).syncs.find? (fun q => q.lo = 0x200000) = some sync0 ∧
    sync0.left = [] ∧ (busy.modFnMem f0 fun m => { m with syncs := [sync0] }).tick.copyRoom f0 0 = true ∧ (busy.modFnMem f0 fun m => { m with syncs := [sync0] }).tick.poolQuiet f0 0x200000 0x200040 = true ∧
    (busy.mem.fns[f0]).gone = [] ∧ mapCanon 0 (busy.mem.fns[f0]).back = true ∧
    ({ sync0 with left := [32] } : SyncRun).left ≠ [] ∧ ((busy.locsOf f0 (busy.fillSecs f0 32)).any fun k => (busy.mem.fns[f0]).rdQ.contains k) = false ∧
    (let z := busy.modFnMem f0 fun m => { m with staged := [stage0], secs := [(0x200, 9)], rdQ := [9] }; (z.locsOf f0 (z.fillSecs f0 32)).any fun k => (z.mem.fns[f0]).rdQ.contains k) = true := by decide +kernel
theorem wit_move_done : ((busy.modAllocAt f0 0x200000 fun a => { a with move := some ⟨some (cmd0 0x43), .flash, 0, [], 256, []⟩ }).mem.fns[f0]).allocs.find? (fun y => y.base = 0x200000) =
    some { alloc0 with move := some ⟨some (cmd0 0x43), .flash, 0, [], 256, []⟩ } ∧ alloc0.pages = 256 ∧ busy.tick.copyRoom f0 0 = true ∧ ∀ x ∈ (busy.mem.fns[f0]).allocs, x.freeing = none := by decide +kernel
theorem test_zero_fill : reply (exec (.allocZeroFillDone f0 0x200000) (busy.modAllocAt f0 0x200000 fun a => { a with zeroing := some (cmd0 0x40) })) = some (.ok, 0x200000, 0) := by decide +kernel
theorem wit_ProviderMemoryResults : live.up = true ∧ live.mgt.linkUp = true ∧ live.mem.prov = none ∧ (live.modMem fun m => { m with prov := some .imgCreate }).mem.prov = some .imgCreate ∧
    (live.modMem fun m => { m with prov := some (.demote 0 0 0 0 []) }).mem.prov = some (.demote 0 0 0 0 []) ∧ (0 : StallId) = Fin.ofNat 16 ((0x2 : BitVec 32).toNat / 2 ^ 8) ∧
    (∀ a ∈ (live.mem.fns[f0]).allocs, ∀ m, a.move = some m → m.cmd ≠ none) ∧ (withImage .dry .idle).mem.images = [image0] ∧
    (∀ n : StallId, (withImage .dry .idle).stallState n ≠ .dry → (withImage .dry .idle).imageNamed n ≠ (withImage .dry .idle).pimg) ∧ (withImage .dry .idle).pimg = (0, 0) ∧
    (live.modMem fun m => { m with prov := some (.imgDelete 3 4) }).mem.prov = some (.imgDelete 3 4) := by
  refine ⟨by decide, by decide, by decide, by decide, by decide, by decide, ?_, by decide +kernel, by decide +kernel, by decide +kernel, by decide⟩
  intro a ha m hm
  have : (live.mem.fns[f0]).allocs = [alloc0] := by decide +kernel
  rw [this, List.mem_singleton] at ha
  rw [ha] at hm
  cases hm
theorem wit_image_free : ∃ i < 65536, ∀ x ∈ live.mem.images, x.slot ≠ i := ⟨0, by decide, by decide +kernel⟩
theorem test_image_delete : (got (exec .imgDelete (withImage .dry .idle)) fun u => u.mem.prov) = some (some (.imgDelete 0 0)) ∧
    (got (exec .providerImageCommandDone ((withImage .dry .idle).modMem fun m => { m with prov := some (.imgDelete 0 0) })) fun u => (u.mem.images.length, u.mem.presStatus)) = some (0, .ok) := by decide +kernel
/-- Block 5 read to the limit; the die pair of block 7 worn beyond FTL_WLCFG.DELTA. -/
def worn : State := live.modFlash fun x => { x with reads := [(5, 50000)], erases := [(7, 300)] }
/-- The data of block 5 is to move, and the first flash turns are the provider's. -/
def moving5 : State := (worn.setReg .chn 0x100 0x10).modFlash fun x => { x with moving := [(5, true)] }
theorem wit_FlashResults : live.up = true ∧ live.mgt.linkUp = true ∧ live.blockOk 0 = true ∧ live.blockOk 700000 = false ∧ live.mem.flash.low.contains 0 = false := by decide +kernel
theorem wit_FlashResults_moves : worn.blockOk 5 = true ∧ worn.ftlPrograms = true ∧ (worn.reg .ftl 0x010).toNat % 2 ^ 24 ≤ mapGet 0 worn.mem.flash.reads 5 ∧
    (worn.reg .ftl 0x00C).toNat % 65536 < worn.mem.flash.pairMax 0 - worn.mem.flash.pairMin 0 ∧ mapGet 0 worn.mem.flash.erases 5 = worn.mem.flash.pairMin 0 ∧
    mapGet 0 worn.mem.flash.reads 6 < (worn.reg .ftl 0x010).toNat % 2 ^ 24 ∧ worn.mem.flash.pairMax 1 - worn.mem.flash.pairMin 1 ≤ (worn.reg .ftl 0x00C).toNat % 65536 ∧
    worn.ftlRuns = true ∧ (worn.setReg .ftl 0 0).ftlRuns = false ∧ moving5.mem.flash.moving = [(5, true)] ∧ blockChannel 5 = (0 : Fin 128).val ∧ moving5.flashDuty = none ∧
    (moving5.mem.fns[pf0]).rdQ = [] ∧ (moving5.mem.fns[pf0]).wbuf = [] ∧ moving5.ftlPrograms = true ∧ moving5.mem.flash.freeBlock 0 ≠ none ∧
    moving5.wheelOwner (mapGet 0 moving5.churn.turns (turnKey (.flashChannel 0))) = .provider ∧ worn.placesIn 5 = [] := by decide +kernel
theorem test_refresh : (got (exec (.readDisturbRefresh 5) worn) fun u => u.mem.flash.moving) = some [(5, true)] ∧
    (got (exec (.wheelTurn (.flashChannel 0)) moving5) fun u => (mapGet 0 u.mem.flash.erases 5, u.mem.flash.moving)) = some (1, []) ∧ (got (exec (.flashBlockFail 5) live) fun u => u.blockOk 5) = some false := by decide +kernel
theorem test_wear_level : (got (exec (.wearLevelMove 5) worn) fun u => u.mem.flash.moving) = some [(5, false)] ∧ (got (exec (.wearLevelMove 7) worn) fun u => u.mem.flash.moving) = some [] := by decide +kernel
def copy0 : HostCopy := { cmd := cmd0 0x44, into := true, host := 0x1000, dev := 0x200000, bytes := 4, asked := 4, done := 0, buf := [] }
def copying : State := busy.modHost f0 fun h => { h with copies := [copy0] }
def disabledRing : State := live.modRing f0 0 fun _ => Ring.reset
theorem wit_HostLinkResults : live.up = true ∧ live.mgt.linkUp = true ∧ live.barOpen f0 = true ∧ (live.ring f0 0).en = true ∧ live.sqSize f0 0 = 16 ∧ live.cqSize f0 0 = 16 ∧ (State.reset.ring f0 0).en = false ∧
    (disabledRing.ring f0 0).drained = true ∧ disabledRing.ringOk f0 0 = true ∧ State.reset.ringOk f0 0 = false ∧ (disabledRing.ring f0 0).running = [] ∧ takesB live f0 0 (desc []) = true ∧
    copying.host[f0].copyIn? = some copy0 ∧ (copying.ring f0 0).running.contains copy0.cmd.ord = true ∧ copying.hostOpen f0 = true ∧ copying.host[f0].held = [] ∧ copying.tick.ready f0 [] [(copy0.dev + copy0.done, 4)] = true ∧ copy0.done + ([1, 2, 3, 4] : List Byte).length = copy0.bytes ∧
    ((((live.setReg (.vfRing 0) 0x04 3).setReg (.vfRing 0) 0x20 0x100).modRing f0 0 fun g => { g with unsig := [0] }).ringReg f0 0 0x04).getLsbD 1 = true := by decide +kernel
theorem test_doorbell : (got (exec (.sqTailDoorbell f0 0 15) live) fun u => ((u.ring f0 0).sqTail, (u.ring f0 0).code)) = some (15, 0) ∧
    (got (exec (.sqTailDoorbell f0 0 16) live) fun u => ((u.ring f0 0).sqTail, (u.ring f0 0).code)) = some (2, 1) ∧
    (got (exec (.cqHeadDoorbell f0 0 1) live) fun u => ((u.ring f0 0).cqHead, (u.ring f0 0).code)) = some (0, 1) := by decide +kernel
theorem test_host_in : reply (exec (.hostReadData f0 [1, 2, 3, 4]) copying) = some (.ok, 4, 0) ∧ (got (exec (.hostReadData f0 [1, 2, 3, 4]) copying) fun u => u.byteAt f0 0x200003) = some 4 := by decide +kernel
theorem wit_ErrorResults : live.up = true ∧ (live.allocAt f0 0x200000).isSome = true ∧ live.ras.resends[(0 : Fin 8)] < 16 ∧
    16 ≤ (live.modRas fun x => { x with resends := Vector.replicate 8 16 }).ras.resends[(0 : Fin 8)] ∧ live.mgt.linkUp = true := by decide +kernel
theorem test_ecc : (got (exec (.hbmUncorrRead 0 0 f0 0x200040) live) fun u => (u.poisoned f0 0x200040 64, u.poisoned f0 0x200080 64, u.ras.ue)) = some (true, false, 1) := by decide +kernel
def portIn (st : PortState) : State := live.modPort 0 fun x => { x with st }
def train0 : TrainInfo := { faults := 0, peerMod := 2, peerPort := 1, widths := 7, shares := List.replicate 17 3, rtt := 5 }
theorem wit_PortResults : live.up = true ∧ live.mgt.linkUp = true ∧ ((portIn .laser).port 0).st = .laser ∧ ((portIn .align).port 0).st = .align ∧ ((portIn .fec).port 0).st = .fec ∧
    ((portIn .exchange).port 0).st = .exchange ∧ (chooseWidth (((portIn .exchange).port 0).faults ||| train0.faults) ((portIn .exchange).ownWidths 0 &&& train0.widths)).1 = 8 ∧
    (portIn .exchange).rxSum 0 ≤ 64 ∧ (chooseWidth 0xFF 7).1 = 0 ∧ ((portIn .fec).port 0).st.training = true ∧ ((portIn .down).port 0).st = .down ∧
    ((portIn .down).setReg (.fab 0) 0x000 1).portEn 0 = true ∧ (portIn .down).lasersOk 0 = true ∧ ((portIn .active).port 0).faults.getLsbD 3 = false ∧ live.fabric.laserOk[(0 : Fin 8)] = true := by decide +kernel
theorem test_training : (got (exec (.trainStateDone 0 train0) (portIn .exchange)) fun u => ((u.port 0).st, (u.port 0).width, mapGet 0 (u.port 0).credit 16)) = some (.active, 8, 192) ∧
    (got (exec (.trainStateDone 0 { train0 with faults := 0xFF }) (portIn .fec)) fun u => (u.port 0).st) = some .down := by decide +kernel
/-- Every class has weight 0 on port 0: no cell has a class. -/
def noClass : State := (List.range 17).foldl (fun s c => s.setReg .trf (0x5004 + 8 * c) 0) (portIn .active)
def flit0 : Flit := { kind := .data, fseq := 0, ack := 0, nak := false, crcls := 3, crcnt := 2, slots := [] }
def request : Packet := { hdr := 0, pay := [], marks := [] }
theorem wit_FlitResults : live.up = true ∧ (live.port 0).st ≠ .active ∧ ((portIn .active).port 0).st = .active ∧ flit0.nak = false ∧ flit0.fseq = ((portIn .active).port 0).rxLast + 1 ∧
    0 < (({ flit0 with fseq := 5 } : Flit).fseq - ((portIn .active).port 0).rxLast - 1).toNat ∧ ((portIn .active).port 0).replay.length < 2048 ∧ ((portIn .active).port 0).stream.length + 9 < 40 ∧
    (portIn .active).tick.nextCell 0 = some (0, 0) ∧ noClass.tick.nextCell 0 = none ∧ 31 ≤ ((noClass.modPort 0 fun x => { x with stream := List.replicate 31 idleSlot }).port 0).stream.length ∧
    2048 ≤ (((portIn .active).modPort 0 fun x => { x with replay := List.replicate 2048 ⟨flit0, 0⟩ }).port 0).replay.length := by decide +kernel
theorem test_flit : (got (exec (.flitReceive 0 flit0 1 0) (portIn .active)) fun u => ((u.port 0).rxLast, mapGet 0 (u.port 0).credit 3, (u.port 0).fecc)) = some (0, 2, 1) ∧
    (got (exec (.flitReceive 0 flit0 0 1) (portIn .active)) fun u => ((u.port 0).rxLast, (u.port 0).nakDue)) = some (0xFFF, true) := by decide +kernel

/-! ECRC's conventions are open (log 43), so packets with a good and with a bad ECRC are found by argument. -/

theorem toBytesLE_low (n x e : Nat) : toBytesLE n (x + e * 256 ^ n) = toBytesLE n x := by
  induction n generalizing x with
  | zero => rfl
  | succ n ih =>
    have h1 : BitVec.ofNat 8 (x + e * 256 ^ (n + 1)) = BitVec.ofNat 8 x := by
      apply BitVec.eq_of_toNat_eq
      simp only [BitVec.toNat_ofNat, Nat.pow_succ, ← Nat.mul_assoc, Nat.reducePow, Nat.add_mul_mod_self_right]
    have h2 : (x + e * 256 ^ (n + 1)) / 256 = x / 256 + e * 256 ^ n := by
      rw [Nat.pow_succ, ← Nat.mul_assoc, Nat.add_mul_div_right _ _ (by decide)]
    simp only [toBytesLE, h1, h2, ih]
/-- The packet without payload whose header has the low 28 bytes `l` and the ECRC `e`. -/
def bare (l : Nat) (e : BitVec 32) : Packet := ⟨BitVec.ofNat 256 (l + e.toNat * 2 ^ 224), [], []⟩
theorem bare_nat (l : Nat) (e : BitVec 32) (h : l < 2 ^ 224) : (bare l e).hdr.toNat = l + e.toNat * 2 ^ 224 := by
  simp only [bare, BitVec.toNat_ofNat]
  exact Nat.mod_eq_of_lt (by have := e.isLt; omega)
theorem bare_ecrc (l : Nat) (e : BitVec 32) (h : l < 2 ^ 224) : (bare l e).ecrc = (bare l 0).ecrc := by
  have h28 : (2 : Nat) ^ 224 = 256 ^ 28 := by decide
  simp only [Packet.ecrc, Packet.covered, bare_nat _ _ h, h28, toBytesLE_low]
  rfl
theorem bare_field (l : Nat) (e : BitVec 32) (o n : Nat) (h : l < 2 ^ 224) (ho : o + n ≤ 28) : (bare l e).field o n = l / 2 ^ (8 * o) % 2 ^ (8 * n) := by
  simp only [Packet.field, bare_nat _ _ h]
  have h1 : (2 : Nat) ^ 224 = 2 ^ (224 - 8 * o) * 2 ^ (8 * o) := by rw [← Nat.pow_add]; congr 1; omega
  have h2 : (2 : Nat) ^ (224 - 8 * o) = 2 ^ (224 - 8 * o - 8 * n) * 2 ^ (8 * n) := by rw [← Nat.pow_add]; congr 1; omega
  rw [h1, ← Nat.mul_assoc, Nat.add_mul_div_right _ _ (Nat.two_pow_pos _), h2, ← Nat.mul_assoc, Nat.add_mul_mod_self_right]
theorem bare_top (l : Nat) (e : BitVec 32) (h : l < 2 ^ 224) : (bare l e).field 0x1C 4 = e.toNat := by
  simp only [Packet.field, bare_nat _ _ h]
  have := e.isLt
  omega
theorem bare_ok (l : Nat) (h : l < 2 ^ 224) : (bare l (bare l 0).ecrc).ecrcOk = true := by simp [Packet.ecrcOk, bare_top _ _ h, bare_ecrc _ _ h]
theorem bare_bad (l : Nat) (h : l < 2 ^ 224) : (bare l (~~~(bare l 0).ecrc)).ecrcOk = false := by
  simp only [Packet.ecrcOk, bare_top _ _ h, bare_ecrc _ _ h, decide_eq_false_iff_not]
  intro hc
  have := congrArg (fun x : BitVec 32 => x.getLsbD 0) (BitVec.eq_of_toNat_eq hc)
  simp at this

/-- A read of one block at offset 0 of export 0 by Stall 3 of module 2. -/
def readL : Nat := (mkHeader 1 0 0 2 0x30 4 0 0 9 0 1 0 0).toNat
def readOk : Packet := bare readL (bare readL 0).ecrc
/-- Stall 0 has exported its allocation to module 2, whose Stall 3 is bound to it. -/
def exporter : State := (live.setReg .trf 0x800 0x80000302).modFnMem f0 fun m => { m with exports := [⟨0, 0x200000, 2⟩] }
theorem exporter_mem : (exporter.mem.fns[vfOf 0]).exports = [⟨0, 0x200000, 2⟩] ∧ (exporter.mem.fns[vfOf 0]).allocs = [alloc0] ∧ exporter.boundStall 0 2 = some 3 ∧ live.boundStall 0 2 = none ∧
    exporter.fresh? 0 = true := by decide +kernel
/-- The header fields of that read. -/
def IsRead (k : Packet) : Prop :=
  k.ty = 1 ∧ k.cls = 0 ∧ k.src = 2 ∧ k.dstStall = 0 ∧ k.srcStall = 3 ∧ k.plen = 0 ∧ k.status = 0 ∧ k.tid = 9 ∧ k.target = 0 ∧ k.nblk = 1 ∧ k.aux = 0 ∧ k.offset = 0 ∧
    k.field 1 1 = 0 ∧ k.field 0x18 4 = 0
theorem read_fields (e : BitVec 32) : IsRead (bare readL e) := by
  have h : readL < 2 ^ 224 := by decide +kernel
  simp (disch := decide) only [IsRead, Packet.ty, Packet.cls, Packet.src, Packet.dstStall, Packet.srcStall, Packet.plen, Packet.status, Packet.tid, Packet.target, Packet.nblk, Packet.aux, Packet.offset,
    bare_field _ _ _ _ h]
  decide +kernel
theorem read_refusal (k : Packet) (h : IsRead k) : k.response = false ∧ exporter.exportAddr k = some 0x200000 ∧ exporter.refusal k = none ∧ live.refusal k = some 1 := by
  obtain ⟨h1, h2, h3, h4, h5, h6, h7, h8, h9, h10, h11, h12, h13, h14⟩ := h
  obtain ⟨he, hl, hb, hn, hf⟩ := exporter_mem
  have hbad : k.bad = false := by simp [Packet.bad, h1, h2, h6, h7, h8, h10, h12, h13, h14]
  have ha : exporter.exportAddr k = some 0x200000 := by simp [-Fin.getElem_fin, State.exportAddr, h1, h3, h4, h9, h10, h12, he, hl, alloc0, unitBytes]
  refine ⟨by simp [Packet.response, h1], ha, ?_, ?_⟩
  · simp [State.refusal, hbad, h1, h2, h3, h4, h5, hb, hf, ha]
  · simp [State.refusal, hbad, h2, h3, h4, h5, hn]
theorem wit_packet_read : readOk.ecrcOk = true ∧ readOk.response = false ∧ exporter.exportAddr readOk = some 0x200000 ∧ exporter.refusal readOk = none ∧ live.refusal readOk = some 1 ∧
    (bare readL (~~~(bare readL 0).ecrc)).ecrcOk = false ∧ exporter.poolAddr readOk = some 0x200000 ∧ readOk.fn = f0 ∧ readOk.nblk = 1 ∧
    (mapGet [] (exporter.modFabric fun x => { x with epIn := [(0, [readOk])] }).fabric.epIn 0).find? (fun k => !k.response) = some readOk :=
  have h : readL < 2 ^ 224 := by decide +kernel
  have g : IsRead readOk := read_fields _
  have r := read_refusal readOk g
  have hc : readOk.cls = 0 := g.2.1
  have hd : readOk.dstStall = 0 := g.2.2.2.1
  ⟨bare_ok _ h, r.1, r.2.1, r.2.2.1, r.2.2.2, bare_bad _ h, by simp [State.poolAddr, hc, r.2.1], by simp [Packet.fn, hc, hd, f0], g.2.2.2.2.2.2.2.2.2.1,
    by simp [mapGet, State.modFabric, r.1]⟩

/-- A packet for module 5, one whose last hop is spent, and a response for this module (module 0 after reset). -/
def outward : Packet := ⟨mkHeader 1 0 5 0 0 4 0 0 0 0 1 0 0, [], []⟩
def spent : Packet := ⟨mkHeader 1 0 5 0 0 0 0 0 0 0 1 0 0, [], []⟩
def routed : State := ((portIn .active).setReg .trf 0x414 0x80000000).modFabric fun x => { x with inject := [(0, [outward])] }
theorem wit_PacketResults : live.up = true ∧ live.sourcePacket (.port 0) 0 = none ∧ routed.sourcePacket (.endpoint 0) 0 = some outward ∧ outward.dst ≠ routed.moduleId ∧ routed.outPort outward.dst = some 0 ∧
    routed.queueSay 0 outward = .take ∧ live.outPort outward.dst = none ∧
    (routed.modPort 0 fun x => { x with outQ := [(0, List.replicate 1024 outward)] }).queueSay 0 outward = .wait ∧
    (live.modPort 0 fun x => { x with inQ := [spent] }).sourcePacket (.port 0) 0 = some spent ∧ spent.dst ≠ live.moduleId ∧ spent.hops = 0 ∧
    (live.modPort 0 fun x => { x with inQ := [⟨mkHeader 0x81 0 0 2 0 4 0 0 9 0 1 0 0, [], []⟩] }).sourcePacket (.port 0) 0 = some ⟨mkHeader 0x81 0 0 2 0 4 0 0 9 0 1 0 0, [], []⟩ ∧
    (⟨mkHeader 0x81 0 0 2 0 4 0 0 9 0 1 0 0, [], []⟩ : Packet).response = true ∧ live.moduleId = 0 ∧ live.fabric.want[(0 : StallId)] = [] ∧
    ((live.setTxns 0 [⟨9, .read 0 0 0x200000 1, 0⟩]).txnsOf 0).find? (fun t => t.tid = 9) = some ⟨9, .read 0 0 0x200000 1, 0⟩ ∧ (TxnKind.read 0 0 0x200000 1).answerType = 0x81 ∧
    (live.setReg .trf 0x7000 0x20001).gateDur 0 0 ≠ 0 ∧ (live.port 0).gateAt + (live.setReg .trf 0x7000 0x20001).gateDur 0 0 < live.boundaryDue ∧
    ((portIn .active).port 0).st = .active ∧ live.syncMode ≠ 2 ∧ (live.setReg .trf 0x010 2).syncMode = 2 ∧ (live.setReg .trf 0x010 2).syncPort = 0 ∧ live.churn.running = true := by decide +kernel
theorem test_forward : (got (exec (.packetForward (.endpoint 0) 0) routed) fun u => (((u.port 0).queue 0).length, (mapGet [] u.fabric.inject 0).length)) = some (1, 0) := by decide +kernel

/-! ### Witnesses: serving commands and events -/

/-- FIPS 180-4's example: the digest of "abc" begins cb00753f45a35e8b. -/
theorem test_sha384 : (sha384 [0x61, 0x62, 0x63]).take 8 = [0xCB, 0x00, 0x75, 0x3F, 0x45, 0xA3, 0x5E, 0x8B] := by decide +kernel

/-- A container of one kernel, `end`, with BOUND 100: the section table at 0x80, CODE at 0xA0, KTAB at 0xA8. -/
def dobBody : List Byte :=
  toBytesLE 16 (packed [(0, 1), (4, 0xA0), (8, 8)]) ++ toBytesLE 16 (packed [(0, 2), (4, 0xA8), (8, 32)]) ++ toBytesLE 8 (0x3C * 2 ^ 56) ++ toBytesLE 32 (packed [(4, 1), (8, 100), (0xC, 0xFFFFFFFF)])
/-- SHA-384 of `dobBody`, worked outside the model. -/
def dobDigest : List Byte :=
  toBytesLE 48 0xB059E8D97D116A24944CB5D831634124F99B63BF2D566D9B582CA29024DEDB9D4C3B48F4C4C0AA0892955B0C085A71B1
def dobBytes : List Byte := toBytesLE 32 (packed [(0, 0x31424F44), (4, 1), (6, 0x80), (8, 200), (0xC, 2), (0x10, 1), (0x12, 1), (0x14, 0x80)]) ++ dobDigest ++ List.replicate 48 0 ++ dobBody
def dobState : State := live.writeMem f0 0x200000 dobBytes
def dobDesc (n : Nat) : Desc := desc [(0x10, 0x200000), (0x18, n), (0x20, 0x201000)]
theorem test_dob_digest : sha384 dobBody = dobDigest := by decide +kernel
theorem wit_dob_load : acceptsB dobState 0x08 f0 0 (dobDesc 200) = true ∧ (dobState.fetched f0 0).covered f0 0x200000 200 = true ∧ (dobState.fetched f0 0).poisoned f0 0x200000 200 = false ∧
    (dobState.fetched f0 0).readMem f0 0x200000 200 = dobBytes ∧ parseDob (dobBytes.take 64) = none ∧ (dobState.fetched f0 0).writable f0 0x201000 2 = true ∧
    (match parseDob dobBytes with
     | some b => decide (b.nkern = 1) && decide (b.bytes.drop 128 = dobBody) && decide (b.digest = dobDigest) && decide (b.level = 1) && decide (cont0.digest ≠ ofBytesLE b.digest) &&
         ((dobState.fetched f0 0).kernelChecks 0 b).isNone && b.constBytes.isEmpty && decide (1 * unitBytes + b.charge ≤ (dobState.fetched f0 0).quotaHbm 0 * unitBytes)
     | none => false) = true ∧ (dobState.serving[(0 : StallId)]).loading = [] := by decide +kernel
/-- The loader's refusals, Table 4.17: an operation that does not exist, an unused field that is not zero, a branch out of the kernel. -/
theorem test_kernel_checks : (⟨0, [decodeDy (0x3F * 2 ^ 56)]⟩ : KernelCode).instr 1 = some (0, 4) ∧ (⟨0, [decodeDy (0x3C * 2 ^ 56 + 5)]⟩ : KernelCode).instr 1 = some (0, 4) ∧
    (⟨0, [decodeDy (0x36 * 2 ^ 56 + 2 ^ 32 + 1)]⟩ : KernelCode).flow = some (0, 6) ∧ (⟨0, [decodeDy (0x3C * 2 ^ 56)]⟩ : KernelCode).flow = none := by decide +kernel

def vocab0 : Vocab :=
  { handle := 0, toks := [⟨[0x61], false, false, false⟩, ⟨[0x62], false, false, false⟩, ⟨[0x61, 0x62], false, false, false⟩], merges := [(0, 1, 2)], repl := 0, byteBase := none, presplit := false, size := 64,
    ready := true, tokAddr := 0x320000, strAddr := 0x321000, mrgAddr := 0x322000 }
def template0 : Template := { handle := 0, vocab := 0, minpass := 0, ctrl := [], ops := [], lits := [] }
def shard0 : Shard := { die := 0, cap := 4, code := 0x300000, adj := 0x301000, metaB := 0x302000, entries := [0], efBuild := 8 }
def index0 : Index := { handle := 0, w := 512, d := 16, shards := [shard0], epoch := 5, retiring := false }
def table0 : Table :=
  { handle := 0, passage := false, ty := 5, die := 0, rowBytes := 64, rows := 4, slots := 6, map := 0x310000, data := 0x311000, parts := [], shards := [], version := 0, free := [(0, 4), (1, 5)], old := [], ready := true,
    retiring := false }
def modelB : List Byte :=
  toBytesLE 64 (packed [(0, 1), (1, 1), (2, 1), (4, 3), (6, 0xFFFF), (0x10, 0x400000), (0x18, 16), (0x1C, 0x1000), (0x20, 64), (0x24, 64)])
def progB : List Byte := toBytesLE 256 (packed [(1, 0xFF), (4, 0xFF), (6, 3), (8, 0xFFFE), (0xC, 16)])
/-- Stall 0 serves: vocabulary, template, index and table 0, model 3 and program 2 that binds them, in 128 MiB of HBM. -/
def serves (g : Serving → Serving) : State :=
  (liveV fun v => g { v with keep := { v.keep with vocabs := [vocab0], templates := [template0], indexes := [index0], tables := [table0], models := [⟨3, modelB⟩], programs := [⟨2, progB, false⟩] } }).modFnMem f0
    fun m => { m with allocs := [{ alloc0 with units := 64 }] }
def full : State := serves id
def reqDesc (p : Nat) : Desc := desc [(4, 7), (0x10, p), (0x14, 0xFFFF), (0x16, 1), (0x18, 0x240000), (0x20, 0x280000), (0x28, 4096), (0x2C, 16), (0x30, 0x290000), (0x38, 64)]
/-- A request to program 2 with one buffer of 5 bytes, and one to a program that is not bound. -/
theorem wit_request : let s := full.writeMem f0 0x240000 [0, 0, 0x25, 0, 0, 0, 0, 0, 5]
    (acceptsB s 0x01 f0 0 (reqDesc 2) && acceptsB s 0x01 f0 0 (reqDesc 3)) = true ∧ (s.fetched f0 0).requestBad 0 (s.nextCmd 0x01 f0 0 (reqDesc 2)) = false ∧
    (s.fetched f0 0).requestBad 0 (s.nextCmd 0x01 f0 0 (reqDesc 3)) = true ∧ (s.fetched f0 0).poisoned f0 0x240000 16 = false ∧
    ((s.modMem fun m => { m with poison := [memKey f0 0x240000 / 64] }).fetched f0 0).poisoned f0 0x240000 16 = true ∧
    ¬ (s.seqMax 0 ≤ (s.serving[(0 : StallId)]).requests.length ∨ (s.serving[(0 : StallId)]).clientMax 0 ≤ (s.serving[(0 : StallId)]).requests.countP fun q => q.client = 0) := by decide +kernel
def request0 : Request := { req0 with program := 2 }
def asking : State := serves fun v => { v with requests := [request0] }
theorem wit_unload_cancel : (acceptsB full 0x09 f0 0 (desc [(0x10, 3)]) && acceptsB full 0x09 f0 0 (desc [(0x10, 4)])) = true ∧ (full.serving[(0 : StallId)]).kernel? 3 = some (cont0, ⟨3, 8, 16, 100⟩) ∧
    (full.serving[(0 : StallId)]).kernel? 4 = none ∧ cont0.unloading = false ∧ (acceptsB asking 0x02 f0 0 (desc [(0x10, 7)]) && acceptsB asking 0x02 f0 0 (desc [(0x10, 8)]) &&
      acceptsB asking 0x02 f0 0 (desc [(0x16, 3)])) = true ∧ request0.tag = 7 ∧ request0.cancelled = false := by decide +kernel
def itemDesc (k : Nat) : Desc := desc [(4, 9), (0x10, 0x240000), (0x18, k), (0x1C, 0xFF), (0x1D, 7)]
theorem wit_dispatch : let s := full.writeMem f0 0x240000 [3, 0, 0xFF, 0xFF]
    (acceptsB s 0x03 f0 0 (itemDesc 1) && acceptsB s 0x03 f0 0 (itemDesc 0) && acceptsB s 0x03 f0 0 (itemDesc 1025)) = true ∧ (s.serving[(0 : StallId)]).req? 9 = none ∧
    (s.fetched f0 0).covered f0 0x240000 72 = true ∧ (s.fetched f0 0).poisoned f0 0x240000 72 = false ∧ 0 < s.seqMax 0 ∧
    (let b := (s.fetched f0 0).readMem f0 0x240000 72
     bytesZero b 4 4 = true ∧ bytesField b 0 2 = 3 ∧ bytesField b 2 2 = 0xFFFF) ∧ (s.fetched f0 0).boundTooLong 0 3 = false := by decide +kernel
/-- PROG_BIND, MDL_REG and SRV_CFG with a record that is allowed and with one that is not. -/
theorem wit_records : (acceptsB full 0x10 f0 0 (desc [(0x10, 0x240000)]) && acceptsB full 0x12 f0 0 (desc [(0x10, 0x240000)]) && acceptsB full 0x17 f0 0 (desc [(0x10, 0x240000)])) = true ∧
    (full.fetched f0 0).covered f0 0x240000 256 = true ∧ (full.fetched f0 0).poisoned f0 0x240000 256 = false ∧ (full.fetched f0 0).readMem f0 0x240000 256 = List.replicate 256 0 ∧
    (let s := full.writeMem f0 0x240000 progB
     (s.fetched f0 0).readMem f0 0x240000 256 = progB) ∧ (full.serving[(0 : StallId)]).progBad progB = false ∧ (full.serving[(0 : StallId)]).progBad (List.replicate 256 0) = true ∧
    (let s := full.writeMem f0 0x240000 modelB
     (s.fetched f0 0).readMem f0 0x240000 64 = modelB) ∧ (full.fetched f0 0).modelBad 0 modelB = false ∧ (full.fetched f0 0).modelBad 0 (List.replicate 64 0) = true ∧
    (∀ p ∈ (full.serving[(0 : StallId)]).keep.programs, p.handle ≠ 63) ∧ (∀ p ∈ (full.serving[(0 : StallId)]).keep.models, p.handle ≠ 255) := by decide +kernel
def cfgB (pt : Nat) : List Byte := toBytesLE 128 (packed [(0, pt), (0x20, 0xFFFF), (0x30, 0xFFFF), (0x40, 0xFFFF)])
theorem wit_srv_cfg : (full.fetched f0 0).cfgBad 0 (cfgB 0) = false ∧ (full.fetched f0 0).cfgBad 0 (cfgB 0x400000) = false ∧ (full.fetched f0 0).cfgBad 0 (cfgB 0x8000000) = true ∧
    (full.serving[(0 : StallId)]).keep.cfg.pt = 0 ∧ (full.serving[(0 : StallId)]).keep.programs ≠ [] ∧ (live.serving[(0 : StallId)]).keep.programs = [] ∧
    (let s := full.writeMem f0 0x240000 (cfgB 0x400000)
     (s.fetched f0 0).readMem f0 0x240000 128 = cfgB 0x400000) := by decide +kernel
theorem wit_retire_adapter_client : (acceptsB asking 0x11 f0 0 (desc [(0x10, 2)]) && acceptsB asking 0x13 f0 0 (desc [(0x10, 3)]) && acceptsB full 0x14 f0 0 (desc [(0x10, 256)]) &&
      acceptsB full 0x14 f0 0 (desc [(0x10, 5), (0x12, 3), (0x18, 0x260000), (0x20, 64)]) && acceptsB full 0x15 f0 0 (desc [(0x10, 4096)]) && acceptsB full 0x15 f0 0 (desc [(0x10, 1), (0x12, 4096)]) &&
      acceptsB full 0x16 f0 0 (desc [(0x12, 2)]) && acceptsB full 0x16 f0 0 (desc [(0x12, 1)])) = true ∧ (asking.serving[(0 : StallId)]).retires = [] ∧
    ((full.serving[(0 : StallId)]).program? 2).isSome = true ∧ ((full.serving[(0 : StallId)]).model? 3).isSome = true ∧ (full.serving[(0 : StallId)]).requests = [] ∧
    (asking.serving[(0 : StallId)]).requests = [request0] ∧ request0.program = 2 ∧ (asking.serving[(0 : StallId)]).reqModel request0 = some 3 ∧ ((full.serving[(0 : StallId)]).model? 4).isSome = false ∧
    (full.fetched f0 0).covered f0 0x260000 64 = true := by decide +kernel

/-- `serves` with command 0 of ring 0 running. -/
def working (g : Serving → Serving) : State := (serves g).modRing f0 0 fun g => { g with running := [0], nextOrd := 1 }
/-- The condition on the serving state holds of Stall 0's as `serves` builds it. -/
def srv (s : State) : Serving := s.serving[(0 : StallId)]
def loading0 : Loading := ⟨cmd0 8, { cont0 with id := 9 }⟩
def adapter0 : Adapter := { id := 5, model := 3, ver := 2, addr := 0x260000, bytes := 64, next := none, old := some (cmd0 0x14, 1), oldAddr := 0x250000, queue := [] }
def trig0 : Trig := ⟨3, 0xFFFF, 1, 1, 10, 0⟩
def early (g : Serving → Serving) : State := serves fun v => g { v with keep := { v.keep with cfg := { v.keep.cfg with trig := [trig0, Trig.none, Trig.none] } } }
theorem wit_dispatch_release : let a := working fun v => { v with loading := [loading0] }
    (srv a).loading.find? (fun l => l.cont.id = 9) = some loading0 ∧ loading0.cmd.f = vfOf 0 ∧ (a.ring f0 0).running.contains loading0.cmd.ord = true ∧ a.hostOpen f0 = true ∧ a.host[f0].held = [] ∧
    (let b := serves fun v => { v with batches := [batch0] }
     (srv b).batches.find? (fun b => b.waiting && decide (b.die = 0)) = some batch0 ∧ (srv b).batch? batch0.num = some batch0 ∧ ((srv b).inboxOf 0).length + batch0.roots.length ≤ 1024) ∧
    (let b := serves fun v => { v.setInbox 0 (List.replicate 1024 item0) with batches := [batch0] }
     1024 < ((srv b).inboxOf 0).length + batch0.roots.length) ∧
    (let x := working fun v => { v with keep := { v.keep with adapters := [adapter0] }, requests := [{ request0 with adapter := some (5, 1) }] }
     (srv x).keep.adapters.find? (fun x => x.id = 5 && x.model = 3) = some adapter0 ∧ adapter0.old = some (cmd0 0x14, 1) ∧ (srv x).pinned 5 3 1 = true ∧ (srv full).pinned 5 3 1 = false) := by decide +kernel
/-- A queue that a trigger waits for with entries enough, with too few, and after its wait. -/
theorem wit_trigger : let s := early fun v => v.setQueue 0 0 [qe 7]
    (trigSlot 2 = some 0 ∧ trigSlot 6 = some 2 ∧ oldestSince ((srv s).queue 0 0) = some 0) ∧ (srv s).keep.cfg.trig.getD 0 Trig.none = trig0 ∧ s.works 0 = true ∧ (srv s).trigRunning 0 0 = false ∧
    trig0.min ≤ ((srv s).queue 0 0).length ∧ s.tick.slotFits 0 0 ((srv s).bound 3) = true ∧ ((srv s).queue 0 0).length < ({ trig0 with min := 2 } : Trig).min ∧ s.now + 1 < 0 + 10 * 1100 ∧
    (s.tick.until (0 + 10 * 1100)).slotFits 0 0 ((srv s).bound 3) = true := by decide +kernel
/-- A prompt of 100 tokens for model 3, and one that is too long. -/
theorem wit_prompt : let s := working fun v => { v.setQueue 0 6 [qe (entry [(0, 7), (0x10, 100)])] with requests := [request0] }
    (srv s).queue 0 6 = qe (entry [(0, 7), (0x10, 100)]) :: [] ∧ (srv s).req? (qe (entry [(0, 7), (0x10, 100)])).tag = some request0 ∧ request0.phase = .prompt ∧ (srv s).reqModel request0 = some 3 ∧
    Entry.field (entry [(0, 7), (0x10, 100)]) 0x10 4 = 100 ∧ Entry.field (entry [(0, 7), (0x10, 100)]) 0x14 4 = 0 ∧ request0.maxNew ≠ 0 ∧ (100 + 16 + 63) / 64 ≤ (srv s).kvFree 3 ∧
    131072 ≤ Entry.field (entry [(0, 7), (0x10, 131072)]) 0x10 4 ∧ (qe (entry [(0, 7), (0x10, 131072)])).tag = request0.tag ∧ request0.failed = none ∧ request0.heldText = [] ∧
    (s.ring f0 0).running.contains request0.cmd.ord = true := by decide +kernel
def prefilling : Request := { request0 with phase := .prefill, stage := 8, promptLen := 100, maxOut := 16, reserve := 2 }
theorem wit_generation : let s := serves fun v => { v with requests := [prefilling] }
    (srv s).model? 3 = some ⟨3, modelB⟩ ∧ bytesField modelB 0 1 = 1 ∧ (srv s).genRunning 0 3 = false ∧ s.tick.slotFits 0 0 ((srv s).bound (BitVec.ofNat 16 (bytesField modelB 4 2))) = true ∧
    (srv s).genSlots.contains 15 = false ∧ ((srv s).fill 0 3 (bytesField modelB 0x20 4) (bytesField modelB 0x24 4)).rows ≠ [] := by decide +kernel
def job0 : TextJob := { id := 4, die := 0, work := .token 7, ctx := true, taken := 2, line := false, filled := true, held := [(0, qe 7)], mask := .none }
theorem wit_held : let s := serves fun v => { v with text := [job0] }
    (srv s).text.filter (fun j => decide (j.die = 0) && !j.held.isEmpty) = [job0] ∧ job0.held = [(0, qe 7)] ∧ job0.mask ≠ .after ∧ (srv s).codeHolds = [] ∧ s.queueFull 0 0 0 = false ∧ (srv s).walks = [] ∧ (srv s).jobs = [] := by decide +kernel

/-! ### Witnesses: search, gather, text -/

/-- The device's choice among numbers, where there is one, is one of them. -/
theorem pick_mem (s : State) (l : List Nat) (h : l ≠ []) : ∃ x ∈ l, s.pick l = some x := by
  have hl : 0 < l.length := by cases l with
    | nil => exact absurd rfl h
    | cons _ _ => simp
  refine ⟨l[s.free % l.length]'(Nat.mod_lt _ hl), List.getElem_mem _, ?_⟩
  simp [State.pick, h, List.getElem?_eq_getElem (Nat.mod_lt s.free hl)]
/-- What a check answers: none, or the status. -/
def errOf {α : Type} (x : Except Code α) : Option Code :=
  match x with
  | .ok _ => none
  | .error e => some e
theorem ok_of {α : Type} (x : Except Code α) (h : errOf x = none) : ∃ y, x = .ok y := by
  cases x with
  | ok y => exact ⟨y, rfl⟩
  | error e => cases h

def shardB : List Byte := toBytesLE 64 (packed [(4, 4), (8, 0x600000), (0x10, 0x601000), (0x18, 0x602000), (0x24, 2 ^ 96 - 1), (0x30, 16)])
def idxState : State := full.writeMem f0 0x240000 shardB
def idxDesc (k : Nat) : Desc := desc [(0x10, 0x240000), (0x18, k), (0x1C, 2), (0x1D, 0)]
theorem wit_index_register : acceptsB idxState 0x20 f0 0 (idxDesc 1) = true ∧ acceptsB idxState 0x20 f0 0 (idxDesc 257) = true ∧
    (∃ x, (idxState.fetched f0 0).indexCheck 0 (idxState.nextCmd 0x20 f0 0 (idxDesc 1)) = .ok x) ∧
    errOf ((idxState.fetched f0 0).indexCheck 0 (idxState.nextCmd 0x20 f0 0 (idxDesc 257))) = some .badDesc := by
  refine ⟨by decide +kernel, by decide +kernel, ok_of _ ?_, by decide +kernel⟩
  obtain ⟨h, hm, hp⟩ := pick_mem (idxState.fetched f0 0) (freeNumbers 16 fun i => ((idxState.fetched f0 0).serving[(0 : StallId)]).keep.indexes.any fun x => x.handle = i) (by decide +kernel)
  simp only [State.indexCheck, hp]
  clear hp
  revert h
  decide +kernel
def updDesc (a k : Nat) : Desc := desc [(0x18, a), (0x20, k), (0x28, 0x260000)]
theorem wit_index_commands : (acceptsB full 0x21 f0 0 (updDesc 0x250000 4) && acceptsB full 0x21 f0 0 (updDesc 0x250000 0) && acceptsB full 0x21 f0 0 (desc [(0x10, 7)]) && acceptsB full 0x22 f0 0 (desc []) &&
      acceptsB full 0x22 f0 0 (desc [(0x14, 1)]) && acceptsB full 0x23 f0 0 (desc [])) = true ∧ (srv full).index? 7 = none ∧ (srv full).index? 0 = some index0 ∧ index0.retiring = false ∧ (srv full).idxCmds = [] ∧
    (full.fetched f0 0).covered f0 0x250000 (80 * 4) = true ∧ (full.fetched f0 0).writable f0 0x260000 4 = true ∧ index0.epoch ≠ 0xFFFFFFFFFE ∧ index0.shards.length ≤ 1 ∧ (srv full).indexQuiet 0 = true := by
  decide +kernel

def codeE (ix : Nat) : Entry := entry [(0, 0x240000), (6, ix), (8, 0x250000), (0xE, 16), (0x16, 4), (0x18, 7), (0x20, 1)]
def codeQ (ix : Nat) : QEntry := { qe (codeE ix) with tag := 7 }
def disp0 : Dispatching := { die := 0, entry := codeE 0, epoch := 5, total := 1, left := [0], next := 0, code := 0, clauses := [], poison := false }
def walk0 (r : WalkReq) : Walk :=
  { ctx := 0, die := 0, home := 0, insert := none, entry := codeE 0, walk := 0, walks := 1, index := 0, shard := 0, epoch := 5, ef := 16, r := 4, limit := 0, clauses := [], code := 0, queue := [],
    results := [], visited := [], todo := [], fromAdj := false, req := r, flight := true, entered := true, expanded := 0, visits := 0, failed := [], flags := 0, began := 0, held := none, prefetch := 0, wanted := [], bufs := [] }
def walking (r : WalkReq) : State := serves fun v => { v with requests := [request0], walks := [walk0 r] }
theorem wit_code_entry : let s := serves fun v => { v.setQueue 0 1 [codeQ 0] with requests := [request0] }
    (srv s).queue 0 1 = codeQ 0 :: [] ∧ s.works 0 = true ∧ s.halted = false ∧ (srv s).disps = [] ∧ (srv full).req? (codeQ 0).tag = none ∧ (srv s).req? (codeQ 0).tag = some request0 ∧
    (srv s).index? (Entry.field (codeE 7) 6 2) = none ∧ s.queueFull 0 request0.home 2 = false ∧ (srv s).index? (Entry.field (codeE 0) 6 2) = some index0 ∧ s.codeBad f0 index0 (codeE 0) = false ∧
    (serves fun v => v.setQueue 0 2 (List.replicate (s.queueShare 0 2) (qe 0))).queueFull 0 request0.home 2 = true := by decide +kernel
theorem wit_walk_start : let s := serves fun v => { v.setQueue 0 1 [codeQ 0] with requests := [request0], disps := [disp0] }
    s.srcRun = true ∧ (s.setReg .src 0 0).srcRun = false ∧ (srv s).disps.find? (fun y => y.die = 0) = some disp0 ∧ disp0.left = 0 :: [] ∧ (srv s).index? (Entry.field disp0.entry 6 2) = some index0 ∧
    (srv s).req? (queueTag 1 disp0.entry) = some request0 ∧ index0.shards[0]? = some shard0 ∧ s.freeCtx 0 shard0.die = some 0 := by decide +kernel
/-- A live node, a code of one line, a block of two lines: 64 bytes of entry and rows of 16. -/
theorem wit_walk_memory : (∀ r ∈ ([.metaOf 1, .codeOf 1 0 0 0 true, .block 0, .block 8] : List WalkReq), (srv (walking r)).walks.find? (fun w => decide (w.die = 0) && decide (w.ctx = 0)) = some (walk0 r)) ∧
    (srv (walking .finished)).index? 0 = some index0 ∧ full.poisoned f0 (0x302000 + 16) 16 = false ∧ (full.nodeMeta f0 shard0 1).birth = 0 ∧ full.poisoned f0 (0x300000 + 64) 64 = false ∧ ¬ 512 * (0 + 1) < index0.w ∧
    512 * (0 + 1) < ({ index0 with w := 1024 } : Index).w ∧ (0 + 1) * 64 < blockBytes 4 ∧ blockBytes 4 ≤ (8 + 1) * 64 ∧ full.queueFull 0 0 2 = false ∧
    (srv full).walks.find? (fun w => decide (w.die = 0) && decide (w.ctx = 0)) = none := by decide +kernel
def op0 (op : Nat) : UpdOp := { op, shard := 0, node := 1, attr := 0, code := 0, bad := false, poison := false, st := .ready [] false }
def updating (op : Nat) : State := working fun v => { v with idxCmds := [⟨cmd0 0x21, 0, .update [op0 op] 0x260000⟩] }
/-- A sweep of shard 0, whose 4 nodes take 9 steps, at step `k`. -/
def sweepAt (left : List Nat) (k : Nat) : SweepRun := { shard := 0, emin := 4, left, freed := 3, later := 1, ctx := some 0, at_ := k }
def sweeping (left : List Nat) (k : Nat) : State := working fun v => { v with idxCmds := [⟨cmd0 0x22, 0, .sweep (sweepAt left k)⟩] }
theorem wit_update_sweep : (srv (updating 1)).idxCmds = [⟨cmd0 0x21, 0, .update [op0 1] 0x260000⟩] ∧ readyOp [op0 1] = some (0, op0 1, [], false) ∧ (srv (updating 1)).index? 0 = some index0 ∧
    index0.shards[(op0 1).shard]? = some shard0 ∧ (op0 1).node < shard0.cap ∧ (full.nodeMeta f0 shard0 1).birth ≠ noEpoch ∧ (full.nodeMeta f0 shard0 1).live 6 = false ∧
    (let m := (full.writeMem f0 0x302010 (NodeMeta.bytes ⟨0, 2, 9⟩)).nodeMeta f0 shard0 1
     m.birth ≠ noEpoch ∧ m.birth ≤ index0.epoch ∧ index0.epoch + 1 < m.death) ∧ (srv (sweeping [] 9)).idxCmds = [⟨cmd0 0x22, 0, .sweep (sweepAt [] 9)⟩] ∧ shard0.sweepSteps ≤ (sweepAt [] 9).at_ ∧
    (sweepAt [0] 9).left = 0 :: [] ∧ (sweepAt [] 6).at_ = shard0.cap + 1 + 1 ∧ (1 : Nat) < shard0.cap ∧ (0 : Nat) % 32 = (0 : Fin 32).val ∧ shard0.die = 0 ∧ (srv (sweeping [] 6)).walks = [] ∧
    (srv (sweeping [] 6)).disps = [] ∧ (srv (sweeping [] 6)).queue 0 1 = [] ∧ (sweeping [] 6).srcRun = true ∧ (sweeping [] 6).works 0 = true ∧
    (sweeping [] 6).wheelOwner (mapGet 0 (sweeping [] 6).churn.turns (turnKey (.walkEngine 0 0))) = .stall 0 ∧
    ((sweeping [] 9).ring f0 0).running.contains (cmd0 0x22).ord = true ∧ (sweeping [] 9).hostOpen f0 = true ∧ (sweeping [] 9).host[f0].held = [] ∧
    (full.tick.ready f0 [] [(0x260000 + 0, 1)]) = true := by decide +kernel
/-- R214: a node that died by E_min is freed and counted, one that died later but by the current epoch is counted as deferred; the end answers the two counts. -/
theorem test_sweep : (full.writeMem f0 0x302010 (NodeMeta.bytes ⟨0, 1, 4⟩)).deadAt f0 shard0 4 1 = true ∧ (full.writeMem f0 0x302010 (NodeMeta.bytes ⟨0, 1, 5⟩)).deadAt f0 shard0 4 1 = false ∧
    reply (exec (.sweepDone 0) (sweeping [] 9)) = some (.ok, 3, 1) := by decide +kernel

def tableB : List Byte := toBytesLE 64 (packed [(0, 1), (1, 5), (3, 1), (4, 64), (8, 4), (0xC, 6), (0x10, 0x700000), (0x18, 0x701000)])
def tblState : State := full.writeMem f0 0x240000 tableB
theorem wit_table_register : acceptsB tblState 0x28 f0 0 (desc [(0x10, 0x240000)]) = true ∧ (∃ t, (tblState.fetched f0 0).tableCheck 0 (tblState.nextCmd 0x28 f0 0 (desc [(0x10, 0x240000)])) = .ok t) ∧
    errOf ((tblState.fetched f0 0).tableCheck 0 (tblState.nextCmd 0x28 f0 0 (desc [(0x10, 0x240000), (0x16, 1)]))) = some .badDesc := by
  refine ⟨by decide +kernel, ok_of _ ?_, by decide +kernel⟩
  obtain ⟨h, hm, hp⟩ := pick_mem (tblState.fetched f0 0) (freeNumbers 64 fun i => ((tblState.fetched f0 0).serving[(0 : StallId)]).keep.tables.any fun x => x.handle = i) (by decide +kernel)
  simp only [State.tableCheck, hp]
  clear hp
  revert h
  decide +kernel
def replDesc (k : Nat) : Desc := desc [(0, 0x29), (4, 7), (0x18, 0x250000), (0x20, k), (0x28, 0x251000), (0x30, 0x252000)]
theorem wit_table_commands : (acceptsB full 0x29 f0 0 (replDesc 2) && acceptsB full 0x29 f0 0 (replDesc 3) && acceptsB full 0x29 f0 0 (replDesc 0) && acceptsB full 0x29 f0 0 (desc [(0x10, 9)]) &&
      acceptsB full 0x2A f0 0 (desc [])) = true ∧ (srv full).table? 0 = some table0 ∧ (srv full).table? 9 = none ∧ (full.fetched f0 0).covered f0 0x250000 (8 * 3) = true ∧
    (full.fetched f0 0).covered f0 0x251000 (64 * 3) = true ∧ (full.fetched f0 0).writable f0 0x252000 3 = true ∧ (srv full).tblCmds = [] ∧ full.gthRun = true ∧ (full.setReg .gth 0 0).gthRun = false ∧
    (srv full).oldReads table0 = false ∧ table0.free.length + table0.old.length = 2 ∧ (srv full).tableQuiet 0 = true := by decide +kernel
def replCmd : Cmd := ⟨f0, 0, 0, replDesc 2⟩
theorem wit_table_events : let a := working fun v => { v with tblCmds := [⟨replCmd, 0, .wait⟩] }
    let b := working fun v => { v with tblCmds := [⟨cmd0 0x28, 0, .mapping 0⟩] }
    let isMap := fun (r : TblRun) => match r with | .mapping _ => true | _ => false
    (srv a).tblCmds = [⟨replCmd, 0, .wait⟩] ∧ replCmd.op = 0x29 ∧ replCmd.u 0x20 4 = 2 ∧ (srv b).tblCmds.find? (fun y => decide (y.handle = 0) && isMap y.run) = some ⟨cmd0 0x28, 0, .mapping 0⟩ ∧ table0.mapPieces ≤ (b.tick.writeMap 0 table0 table0.mapPieces 0).2 ∧
    (b.ring f0 0).running.contains (cmd0 0x28).ord = true ∧ (srv b).table? 0 = some table0 ∧ (srv a).tblCmds.find? (fun y => decide (y.handle = 0) && isMap y.run) = none := by decide +kernel
/-- R254: a replaced row is read in its new slot. -/
theorem test_replace : (got (exec (.tblReplace f0 0 (replDesc 1)) (full.writeMem f0 0x251000 [0xAB])) fun u => ((u.mapEntry f0 table0 0).cur, u.byteAt f0 (0x311000 + 64 * 4))) = some (4, 0xAB) := by
  decide +kernel

/-- A fetch of 2 rows by the indexes at 0x240000 to 0x250000, of table `t`. -/
def fetchE (t : Nat) : Entry := entry [(0, 7), (4, 1), (5, t), (8, 0x240000), (0x10, 2), (0x18, 0x250000), (0x28, 64)]
def gjob : GJob :=
  { id := 3, die := 0, entry := fetchE 0, version := 0, took := 0, next := 1, done := 0, reads := 0, hits := 0, rangeN := 0, fillN := 0, rmiss := 0, flags := 0, ords := [], nord := 0, held := none }
def gread : GRead :=
  { die := 0, engine := 0, table := 0, key := 0, row := 0, scatter := false, owner := 3, reqs := [(3, 1)], started := true, missing := [], got := [], timedOut := false,
    adds := [], data := none, from_ := none, ver := 0 }
def gathering (g : GRead) : State := serves fun v => { v with requests := [request0], jobs := [gjob], reads := [g] }
theorem wit_fetch_entry : let s := serves fun v => { v.setQueue 0 3 [qe (fetchE 0)] with requests := [request0] }
    (srv s).queue 0 3 = qe (fetchE 0) :: [] ∧ s.works 0 = true ∧ s.halted = false ∧ s.gthRun = true ∧ (srv s).jobs = [] ∧ (srv full).req? (qe (fetchE 0)).tag = none ∧
    (srv s).req? (qe (fetchE 0)).tag = some request0 ∧ s.fetchCheck 0 (fetchE 0) = .ok ∧ s.fetchCheck 0 (fetchE 9) = .noTable ∧ s.queueFull 0 0 4 = false := by decide +kernel
theorem wit_gather : let s := serves fun v => { v with requests := [request0], jobs := [gjob] }
    (srv s).job? 3 = some gjob ∧ gjob.die = 0 ∧ gjob.next + 1 = gjob.count ∧ gjob.op = 1 ∧ gjob.uniq = false ∧ (srv s).table? gjob.table = some table0 ∧ s.poisoned f0 (0x240000 + 4) 4 = false ∧
    s.readNat f0 (0x240000 + 4) 4 < table0.rows ∧ table0.rows ≤ (s.writeMem f0 0x240004 [9]).readNat f0 (0x240000 + 4) 4 ∧ gjob.done + 1 < gjob.count ∧ s.poisoned f0 0x310000 16 = false ∧ (srv s).reads = [] ∧
    (srv s).windowUsed 0 0 < 256 ∧ (srv (gathering gread)).readOf 0 3 (fun x => x.started && x.missing.isEmpty) = some gread ∧ (srv (gathering gread)).table? gread.table = some table0 ∧ table0.passage = false ∧
    (srv (gathering gread)).job? 3 = some gjob ∧ (srv s).job? 4 = none := by decide +kernel
def gpart : GRead := { gread with missing := [1] }
theorem wit_part_timeout : let s := (gathering gpart).setTxns 0 [⟨9, .part 0 0 0 1 [], 0⟩]
    (srv s).readOf 0 3 (fun x => x.started && !x.missing.isEmpty) = some gpart ∧ (s.txnsOf 0).filter (fun t => (t.kind.partOf gpart).isSome) = [⟨9, .part 0 0 0 1 [], 0⟩] ∧
    (TxnKind.part 0 0 0 1 []).partOf gpart = some 1 ∧ (srv full).readOf 0 3 (fun x => x.started && !x.missing.isEmpty) = none := by decide +kernel

/-- A vocabulary header of one token, U+FFFD, at 0x240000: its table stands at 0x250000, its string at 0x260000. -/
def vocState : State := ((full.writeMem f0 0x240000 (toBytesLE 64 (packed [(0, 1), (8, 0x250000), (0x10, 0x260000), (0x18, 0x270000), (0x24, 0xFFFFFFFF)]))).writeMem f0 0x250000 [0, 0, 0, 0, 3]).writeMem f0 0x260000
  [0xEF, 0xBF, 0xBD]
def at24 (l : List (Nat × Nat)) : Desc := desc ((0x10, 0x240000) :: l)
theorem wit_vocab_register : acceptsB vocState 0x30 f0 0 (at24 []) = true ∧ (∃ x, (vocState.fetched f0 0).vocabCheck 0 (vocState.nextCmd 0x30 f0 0 (at24 [])) = .ok x) ∧
    errOf ((full.fetched f0 0).vocabCheck 0 (full.nextCmd 0x30 f0 0 (at24 []))) = some .badText := by
  refine ⟨by decide +kernel, ok_of _ ?_, by decide +kernel⟩
  obtain ⟨h, hm, hp⟩ := pick_mem (vocState.fetched f0 0) (freeNumbers 4 fun i => ((vocState.fetched f0 0).serving[(0 : StallId)]).keep.vocabs.any fun x => x.handle = i) (by decide +kernel)
  have hq : ¬ (vocState.fetched f0 0).quotaHbm 0 * unitBytes < (vocState.fetched f0 0).hbmUse 0 * unitBytes + (vocState.fetched f0 0).useFree.free % 2 ^ 32 := by
    have h1 : (vocState.fetched f0 0).hbmUse 0 * unitBytes + 2 ^ 32 ≤ (vocState.fetched f0 0).quotaHbm 0 * unitBytes := by decide +kernel
    have h2 := Nat.mod_lt (vocState.fetched f0 0).useFree.free (show 0 < 2 ^ 32 by decide)
    omega
  simp only [State.vocabCheck, hp, if_neg hq]
  clear hp hq
  revert h
  decide +kernel
theorem wit_grammar_template : let s := full.writeMem f0 0x240000 (toBytesLE 32 (packed [(0, 2), (4, 1), (8, 0x250000), (0x10, 0x260000), (0x20, 0x270000)]))
    acceptsB s 0x31 f0 0 (at24 []) = true ∧ (∃ x, (s.fetched f0 0).grammarCheck 0 (s.nextCmd 0x31 f0 0 (at24 [])) = .ok x) ∧
    errOf ((full.fetched f0 0).grammarCheck 0 (full.nextCmd 0x31 f0 0 (at24 [(0x16, 1)]))) = some .badDesc ∧ acceptsB full 0x32 f0 0 (at24 []) = true ∧
    errOf ((full.fetched f0 0).templateCheck 0 (full.nextCmd 0x32 f0 0 (at24 [(0x16, 1)]))) = some .badDesc := by
  refine ⟨by decide +kernel, ok_of _ ?_, by decide +kernel, by decide +kernel, by decide +kernel⟩
  obtain ⟨h, hm, hp⟩ := pick_mem ((full.writeMem f0 0x240000 (toBytesLE 32 (packed [(0, 2), (4, 1), (8, 0x250000), (0x10, 0x260000), (0x20, 0x270000)]))).fetched f0 0)
    (freeNumbers 64 fun i => (((full.writeMem f0 0x240000 (toBytesLE 32 (packed [(0, 2), (4, 1), (8, 0x250000), (0x10, 0x260000), (0x20, 0x270000)]))).fetched f0 0).serving[(0 : StallId)]).keep.grammars.any
      fun x => x.handle = i) (by decide +kernel)
  simp only [State.grammarCheck, hp]
  clear hp
  revert h
  decide +kernel
def tplState : State := full.writeMem f0 0x240000 [1, 0, 0, 0, 0, 0, 0, 0, 0, 0, 0, 0, 1]
theorem wit_template_ok : ∃ x, (tplState.fetched f0 0).templateCheck 0 (tplState.nextCmd 0x32 f0 0 (at24 [])) = .ok x := by
  refine ok_of _ ?_
  obtain ⟨h, hm, hp⟩ := pick_mem (tplState.fetched f0 0) (freeNumbers 16 fun i => ((tplState.fetched f0 0).serving[(0 : StallId)]).keep.templates.any fun x => x.handle = i) (by decide +kernel)
  simp only [State.templateCheck, hp]
  clear hp
  revert h
  decide +kernel

/-- A text of 3 bytes at 0x250000, named by the buffer list at 0x240000. -/
def tokState : State := (full.writeMem f0 0x240000 [0, 0, 0x25, 0, 0, 0, 0, 0, 3]).writeMem f0 0x250000 [0x61, 0x62, 0x61]
def tokDesc (voc k : Nat) : Desc := desc [(0, 0x33), (4, 7), (0x10, voc), (0x11, 1), (0x12, k), (0x18, 0x240000), (0x20, 0x260000), (0x28, 16)]
theorem wit_tokenise : (acceptsB tokState 0x33 f0 0 (tokDesc 0 1) && acceptsB tokState 0x33 f0 0 (tokDesc 3 1) && acceptsB tokState 0x33 f0 0 (tokDesc 0 0)) = true ∧ (srv tokState).vocab? 3 = none ∧
    (srv tokState).vocab? 0 = some vocab0 ∧ (srv tokState).retires = [] ∧ (tokState.fetched f0 0).covered f0 0x240000 16 = true ∧ (tokState.fetched f0 0).writable f0 0x260000 64 = true ∧
    (tokState.fetched f0 0).poisoned f0 0x240000 16 = false ∧ (tokState.fetched f0 0).bufList f0 0x240000 1 = some [(0x250000, 3)] ∧ (tokState.fetched f0 0).covered f0 0x250000 3 = true := by decide +kernel
def tokCmd : Cmd := ⟨f0, 0, 0, tokDesc 0 1⟩
def tokJob : TextJob := { id := 4, die := 0, work := .tokenise tokCmd, ctx := true, taken := 3, line := false, filled := true, held := [], mask := .none }
def tokenising (j : TextJob) : State :=
  let tables := ((working fun v => { v with text := [j] }).writeMem f0 0x320000 (toBytesLE 24 (packed [(4, 1), (8, 1), (0xC, 1), (0x14, 2)]))).writeMem f0 0x321000 [0x61, 0x62]
  ((tables.writeMem f0 0x322000 (toBytesLE 12 (packed [(4, 1), (8, 2)]))).writeMem f0 0x240000 [0, 0, 0x25, 0, 0, 0, 0, 0, 3]).writeMem f0 0x250000 [0x61, 0x62, 0x61]
theorem not_bad (s : State) (f : Fn) (x : Vocab) (l : List (Nat × Nat)) (h : s.streamBad f l = false) (hp : s.tokPoison f x.tokAddr x.strAddr x.toks.length = false)
    (hm : s.poisoned f x.mrgAddr (12 * x.merges.length) = false) : s.textBad f x l = false := by simp [State.textBad, h, hp, hm]
/-- "aba" takes 3 steps for its characters and 1 for its merge. -/
theorem wit_text_step : let s := tokenising tokJob
    s.works 0 = true ∧ s.halted = false ∧ s.txtRun = true ∧ (srv s).readyJobs 0 (s.txtContexts 0) = [tokJob] ∧ s.jobSteps 0 tokJob = 4 ∧ ({ tokJob with taken := 2 } : TextJob).taken + 1 < 4 ∧
    (srv (tokenising { tokJob with taken := 2 })).readyJobs 0 (s.txtContexts 0) = [{ tokJob with taken := 2 }] ∧ tokCmd.u 0x10 1 = 0 ∧ (srv s).vocab? 0 = some vocab0 ∧
    (s.ring f0 0).running.contains tokCmd.ord = true ∧ s.hostOpen f0 = true ∧ s.host[f0].held = [] ∧ s.streamBad f0 [(0x250000, 3)] = false ∧
    s.tokPoison f0 0x320000 0x321000 3 = false ∧ s.poisoned f0 0x322000 12 = false ∧ s.vocabKept f0 vocab0 = true ∧ s.tick.ready f0 (s.tick.jobRanges 0 tokJob).1 (s.tick.jobRanges 0 tokJob).2 = true ∧
    s.wheelOwner (mapGet 0 s.churn.turns (turnKey (.textEngine 0))) = .stall 0 ∧ (s.setReg .chn 0x100 0x10).wheelOwner 0 ≠ .stall 0 ∧ (vocab0.tokenise (s.streamText f0 [(0x250000, 3)])).invalid = 0 ∧
    (s.setReg .txt 0 0).txtRun = false := by decide +kernel
/-- R271: the pair (a, b) is merged, so "aba" is tokens 2 and 0; once the merge list is changed they are open (R266). -/
theorem test_tokenise : (vocab0.tokenise [0x61, 0x62, 0x61]).toks = [2, 0] ∧ ((tokenising tokJob).tokens f0 vocab0 [0x61, 0x62, 0x61]).toks = [2, 0] ∧
    ((tokenising tokJob).writeMem f0 0x322000 [1]).vocabKept f0 vocab0 = false := by decide +kernel
theorem wit_text_retire : (acceptsB full 0x34 f0 0 (desc [(0x10, 2)]) && acceptsB full 0x34 f0 0 (desc [(0x10, 0)]) && acceptsB asking 0x34 f0 0 (desc [(0x10, 2)])) = true ∧
    ((srv full).template? 0).isSome = true ∧ (srv full).keep.templates.any (fun t => t.vocab = 0) = true ∧ (srv full).retireBusy (full.nextCmd 0x34 f0 0 (desc [(0x10, 2)])) = false ∧
    (srv asking).retireBusy (asking.nextCmd 0x34 f0 0 (desc [(0x10, 2)])) = true ∧
    (let s := working fun v => { v with vocabCmds := [(cmd0 0x30, 0)] }
     (srv s).vocabCmds.find? (fun x => x.2 = 0) = some (cmd0 0x30, 0) ∧ (srv s).keep.vocabs.find? (fun x => x.handle = 0) = some vocab0 ∧ (s.ring f0 0).running.contains (cmd0 0x30).ord = true) := by
  decide +kernel

/-! ### Witnesses: what waits, and what it waits for -/

/-- Stall 0's allocation is in flash with nothing staged, and the FTL is stopped: nothing of it can be read or written now (R362). -/
def stuck (s : State) : State := (s.setReg .ftl 0 0).modFnMem f0 fun m =>
  { m with allocs := [{ alloc0 with units := 64, tier := .flash }], secs := [0x200, 0x240, 0x250, 0x260, 0x300, 0x301, 0x302, 0x310, 0x311].map fun k => (k, 9) }
def bind0 : Desc := desc [(0x10, 0x240000)]
theorem wit_ring_waits : passesB (stuck full) 0x10 f0 0 bind0 = true ∧ ((stuck full).fetched f0 0).cmdReady ((stuck full).nextCmd 0x10 f0 0 bind0) = false ∧
    acceptsB (stuck full) 0x48 f0 0 (desc [(0x10, 0x200040)]) = true ∧ ((stuck full).fetched f0 0).ready f0 [] [(0x200040, 64)] = false ∧ (full.fetched f0 0).ready f0 [] [(0x200040, 64)] = true ∧
    (full.mem.fns[f0]).queries = [] ∧ (stuck copying).tick.ready f0 [] [(copy0.dev + copy0.done, 4)] = false ∧ copying.tick.ready f0 [] [(copy0.dev + copy0.done, 4)] = true ∧ copy0.buf = [] := by
  decide +kernel
/-- `serves` with the page tables and the rows of the generation batches in the allocation. -/
def paged (g : Serving → Serving) : State := serves fun v => g { v with keep := { v.keep with cfg := { v.keep.cfg with pt := 0x240000, row := 0x250000 } } }
theorem wit_serving_waits : (paged id).tick.ready f0 [] [((srv (paged id)).ptAddr request0, 16384)] = true ∧ (stuck (paged id)).tick.ready f0 [] [((srv (paged id)).ptAddr request0, 16384)] = false ∧
    ∀ j < 16, (paged id).tick.ready f0 [] [((srv (paged id)).rowAddr j 0, 64)] = true := by decide +kernel
/-- The dispatcher of B-die 0 has a turn to use. -/
def turned : State := serves fun v => { v.setQueue 0 1 [codeQ 0] with requests := [request0], dispTurns := [0] }
theorem wit_search_waits : (srv turned).dispTurn 0 = true ∧ (srv full).dispTurn 0 = false ∧ (srv turned).disps = [] ∧ (codeQ 0).poison = false ∧ (stuck full).tick.ready f0 (codeReads index0 (codeE 0)) [] = false ∧
    full.tick.ready f0 (codeReads index0 (codeE 0)) [] = true ∧ (stuck full).codeBad f0 index0 (codeE 0) = false ∧
    (∀ r ∈ ([.metaOf 1, .codeOf 1 0 0 0 true] : List WalkReq), (stuck (walking r)).tick.ready f0 ((walk0 r).reads index0 shard0) [] = false ∧ (walking r).tick.ready f0 ((walk0 r).reads index0 shard0) [] = true) ∧
    full.tick.ready f0 [] [((walk0 (.block 8)).blockAddr, blockBytes 4)] = true ∧ acceptsB (stuck full) 0x21 f0 0 (updDesc 0x250000 4) = true ∧
    ((stuck full).fetched f0 0).ready f0 [(0x250000, (16 + index0.w / 8) * 4)] [] = false ∧ (full.fetched f0 0).ready f0 [(0x250000, (16 + index0.w / 8) * 4)] [] = true ∧
    (stuck (updating 1)).tick.ready f0 [] [(0x260000, 1)] = false := by decide +kernel
theorem wit_table_waits : acceptsB (stuck full) 0x29 f0 0 (replDesc 2) = true ∧ ((stuck full).fetched f0 0).ready f0 [(0x250000, 16)] [] = false ∧ (full.fetched f0 0).ready f0 [(0x250000, 16)] [] = true ∧
    (full.fetched f0 0).writable f0 table0.data (table0.slots * table0.rowBytes) = true ∧
    ((stuck (working fun v => { v with tblCmds := [⟨cmd0 0x28, 0, .mapping 0⟩] })).tick.writeMap 0 table0 table0.mapPieces 0).2 < table0.mapPieces := by decide +kernel
theorem wit_gather_waits : let s := serves fun v => { v with requests := [request0], jobs := [gjob] }
    let line := [(Entry.field gjob.entry 8 6 + 64 * (gjob.next / 16), min 64 ((gjob.count - gjob.next / 16 * 16) * 4))]
    let w := s.tick.noteReads f0 line 0
    s.tick.ready f0 line [] = true ∧ w.ready f0 [] (gjob.zeroRanges table0 1) = true ∧ w.ready f0 [(table0.map, 16)] [] = true ∧ (w.mapEntry f0 table0 0).slotAt 0 < table0.slots ∧
    ((s.modSrv 0 fun v => { v with jobs := [] }).serving[(0 : StallId)]).job? 3 = none ∧ (stuck (gathering gread)).tick.ready f0 ((stuck (gathering gread)).tick.readRanges 0 table0 gread) [] = false ∧
    (gathering gread).tick.ready f0 ((gathering gread).tick.readRanges 0 table0 gread) [] = true ∧ ((gathering gread).tick.bring 0 table0 gread).1.ready f0 [] [(gjob.dst + 1 * gjob.stride, table0.fullRow)] = true := by
  decide +kernel
/-- A training state within its limit and beyond it; a port without marks or held flits; a follower whose next MARK is late, and none; a packet of Stall 0 that waits for its slice. -/
def follower : State := (live.setReg .trf 0x010 2).modChurn fun c => { c with boundaryAt := 5000 }
def injected : State := live.modFabric fun x => { x with epOut := [(epKey 0 0, [outward])] }
theorem wit_fabric_waits : (∀ st ∈ ([.laser, .align, .fec, .exchange] : List PortState), (portIn st).now < ((portIn st).port 0).stAt + st.limit ∧ ((portIn st).port 0).stAt + st.limit ≤ ({ portIn st with now := 10 ^ 9 } : State).now) ∧
    ((portIn .active).port 0).marks = [] ∧ ((portIn .active).port 0).rxHold = [] ∧ ((portIn .active).port 0).badOf 0 (portIn .active).tick.now + 16 ≤ 16 ∧ follower.syncMode = 2 ∧ follower.churn.running = true ∧
    follower.fabric.markAt + 1100 < follower.markDue ∧ live.markDue ≤ live.fabric.markAt + 1100 ∧ exporter.tick.ready f0 [(0x200000, 64)] [] = true ∧ (stuck exporter).tick.ready f0 [(0x200000, 64)] [] = false ∧
    injected.wheelOwner (mapGet 0 injected.churn.turns (turnKey (.slice 0))) = .stall 0 ∧ injected.works 0 = true ∧ mapGet [] injected.fabric.epOut (epKey 0 0) = outward :: [] := by decide +kernel
/-- A message held while Bus Master Enable was 0 goes in a host turn. -/
def holding : State := busy.modHost f0 fun h => { h with held := [.msix f0 3] }
theorem wit_host_held : holding.host[f0].held = .msix f0 3 :: [] ∧ holding.host[f0].bme = true ∧ holding.host[f0].copies = [] ∧
    holding.wheelOwner (mapGet 0 holding.churn.turns (turnKey .host)) = fnOwner f0 ∧ holding.works 0 = true := by decide +kernel
theorem test_host_turn : (got (exec (.wheelTurn .host) holding) fun u => (u.sent, u.host[f0].held)) = some ([.msix f0 3], []) := by decide +kernel

/-! ### Witnesses: power, PMBus, security, management, the block -/

def powered (g : Power → Power) : State := State.reset.modPower g
def standby : State := (stage 10).modPower fun p => { p with vin := 4800, rangeAt := some 0 }
/-- Input present and not; a dip; a ride-through with a loss open; a measured bank; standby with and without AUTO_ON; a tripped group and a hot one. -/
theorem wit_PowerResults : let p := State.reset.power
    (p.applied = true ∧ p.vstby = true ∧ p.riding = false ∧ p.commit = none ∧ State.reset.mgt.stage = 9 ∧ (stage 5).mgt.stage = 5) ∧
    (let q := (powered fun p => { p with riding := true, dist := some ⟨4, 0, 3000⟩ }).power
     q.riding = true ∧ q.dist = some ⟨4, 0, 3000⟩) ∧ (powered fun p => { p with commit := some .holdup }).power.commit = some .holdup ∧
    (powered fun p => { p with rails := p.rails.set 3 false }).railEnabled 3 = false ∧ p.rails[(3 : Fin 22)] = true ∧ bufferRail 3 = false ∧ p.rails[(5 : Fin 22)] = true ∧ bufferRail 5 = true ∧
    (stage 2).mgt.warm = false ∧ ((stage 2).modPower fun p => { p with steps := 3 }).power.steps < 8 ∧ (powered fun p => { p with vstby := false, applied := false }).power.vstby = false ∧
    (powered fun p => { p with vstby := false }).power.applied = true ∧ 6000 ≤ p.bankV.toNat ∧ (powered fun p => { p with bankV := 5500 }).power.bankV.toNat < 6000 ∧ sample0.bankC.toNat ≠ 0 ∧
    1944 * ({ sample0 with bankC := 200 } : Sample).bankC.toNat < 416000 ∧ p.vres.toNat ≤ sample0.bankV.toNat ∧ ({ sample0 with bankV := 5000 } : Sample).bankV.toNat < p.vres.toNat ∧
    (stage 8).mgt.done7 = true ∧ (State.reset.modMgt fun m => { m with stage := 8 }).mgt.done8 = true ∧ (stage 0).mgt.stage = 0 := by decide +kernel
theorem wit_power_standby : standby.mgt.stage = 10 ∧ ((standby.reg .mgt 0x008).getLsbD 0 || standby.power.powerReq) = true ∧
    (((standby.setReg .mgt 0x008 0).reg .mgt 0x008).getLsbD 0 || standby.power.powerReq) = false ∧ (standby.tick.sample sample0).mayStart = false ∧
    (({ standby with now := 10 ^ 12 } : State).tick.sample sample0).mayStart = true ∧ State.reset.up = true ∧ 675 ≤ State.reset.churn.mhz ∧ State.reset.churn.running = false ∧ live.churn.running = true ∧
    (live.churn.rows[(0 : RowId)]).slot.isSome = true ∧ (live.churn.rows[(1 : RowId)]).slot = none ∧ live.tick.ballastKept 1 = false ∧ (State.reset.tick.sample sample0).power.tripped = none ∧
    (State.reset.tick.sample { sample0 with temps := List.replicate 54 126 }).power.tripped = some 0 ∧ ((powered fun p => { p with hot := true }).tick.sample sample0).power.hot = true ∧
    ((State.reset.tick.sample sample0).power.groupMax 0 4).toInt < 45 := by decide +kernel
/-- R421: V_RES of 23.2 mF is 54.96 V. -/
theorem test_vres : (got (exec (.bankCapacitanceMeasure { bankC := 232, bankV := 5000 }) (powered fun p => { p with bankV := 5500, vres := 0 })) fun u => u.power.vres) = some 5496 := by decide +kernel
theorem test_dip : (got (exec (.inputDip sample0) State.reset) fun u => (u.power.dips, u.power.distReg, u.power.distV)) = some (1, 0x10000001, 4700) := by decide +kernel
theorem wit_PmbusResults : State.reset.power.vstby = true ∧ State.reset.mgt.stage ≠ 12 ∧ (21 : BitVec 8).toNat < 22 ∧ 22 ≤ (22 : BitVec 8).toNat ∧ (22 : BitVec 8) ≠ 0xFF ∧
    (powered fun p => { p with page := 4 }).power.page.toNat = (4 : Fin 22).val ∧ 22 ≤ (powered fun p => { p with page := 0xFF }).power.page.toNat ∧ (stage 12).mgt.stage = 12 := by decide
/-- 48.00 V in LINEAR11: 768 × 2^−4; −5 °C: −640 × 2^−7. -/
theorem test_linear11 : (got (exec .pmbusReadVin (powered fun p => { p with vin := 4800 })) fun u => u.answer) = some [0x00, 0xE3] ∧
    (got (exec .pmbusReadTemperature1 (powered fun p => { p with temps := p.temps.set 52 0xFB })) fun u => u.answer) = some [0x80, 0xCD] := by decide +kernel
/-- PF0 has an allocation, and another in which it is in flash, not staged, and the FTL is stopped. -/
def staging : State := State.reset.modFnMem pf0 fun m => { m with allocs := [alloc0] }
def onFlash (s : State) : State := (s.setReg .ftl 0 0).modFnMem pf0 fun m => { m with allocs := [{ alloc0 with tier := .flash }], secs := [(0x200, 9)] }
def ctx0 (session : Option Bool) : State := State.reset.modCtx pf0 fun _ => ⟨true, true, true, session, 0⟩
def secure (g : Sec → Sec) : State := State.reset.modSec g
/-- The reason of a refused bundle. -/
def errCode {α : Type} (x : Except Nat α) : Option Nat :=
  match x with
  | .ok _ => none
  | .error e => some e
theorem wit_SecurityResults : State.reset.up = true ∧ State.reset.mgt.linkUp = true ∧ State.reset.sec.cmd = none ∧ (State.reset.reg .sec 0x008).getLsbD 1 = false ∧
    ((State.reset.setReg .sec 0x008 2).reg .sec 0x008).getLsbD 1 = true ∧ State.reset.sec.staged = false ∧ (secure fun x => { x with staged := true }).sec.staged = true ∧ State.reset.sec.trial = false ∧
    (secure fun x => { x with trial := true }).sec.trial = true ∧ (secure fun x => { x with cmd := some ⟨0x200000, 100⟩ }).sec.cmd = some ⟨0x200000, 100⟩ ∧ State.reset.covered pf0 0x200000 100 = false ∧ staging.covered pf0 0x200000 100 = true ∧
    staging.tick.canRead pf0 [(0x200000, 100)] = true ∧ (onFlash staging).tick.canRead pf0 [(0x200000, 100)] = false ∧ State.reset.spdmOn f0 = true ∧
    (secure fun x => { x with cfg := { x.cfg with spdmVf := false } }).spdmOn f0 = false ∧ ((ctx0 none).sec.ctx[pf0]).algs = true ∧ ((ctx0 none).sec.ctx[pf0]).session = none ∧
    ((ctx0 (some false)).sec.ctx[pf0]).session = some false ∧ ((ctx0 (some true)).sec.ctx[pf0]).session = some true ∧ (State.reset.sec.ctx[f0]).version = false ∧ State.reset.spdmBusy f0 = true ∧
    live.spdmBusy f0 = false ∧ State.reset.spdmBusy pf0 = false ∧ (2 : BitVec 8).toNat < 3 ∧ (secure fun x => { x with streams := x.streams.set 1 ⟨true, some 5⟩ }).sec.streams[(1 : Fin 5)].secure = true ∧
    errCode (State.reset.sec.verifyBundle []) = some 5 := by decide +kernel
theorem test_spdm : (got (exec (.spdmFinish pf0 ⟨0, false, [], []⟩) (ctx0 (some false))) fun u => (u.answer, (u.sec.ctx[pf0]).session)) = some ([0x65], some true) ∧
    (got (exec (.spdmGetCapabilities pf0 ⟨0, false, [], []⟩) State.reset) fun u => u.answer) = some [0x7F, 0x04] := by decide +kernel
theorem test_commit : (got (exec .fwCommit (secure fun x => { x with trial := true })) fun u => (u.sec.trial, u.sec.result)) = some (false, .ok) := by decide +kernel
def rec0 : LogRec := { ty := 1, unset := false, pos := 0, rtc := 0, seq := 0, data := [] }
def pfLog (n : Nat) : State :=
  ((State.reset.setReg .mgt 0x048 0x200000).setReg .mgt 0x054 (BitVec.ofNat 32 n)).modFnMem pf0 fun m => { m with allocs := [{ alloc0 with units := 1 }] }
theorem wit_ManagementResults : (stage 10).mgt.stage = 10 ∧ State.reset.mgt.stage ≠ 10 ∧ ((stage 10).reg .mgt 0x008).getLsbD 2 = true ∧ (((stage 10).setReg .mgt 0x008 0).reg .mgt 0x008).getLsbD 2 = false ∧
    (stage 10).tick.mayStart = false ∧ ({ standby with now := 10 ^ 12 } : State).tick.mayStart = true ∧ (9 : BitVec 8) ≠ 0 ∧ State.reset.mgt.unsealed.length + 1 < 1020 ∧
    (State.reset.modMgt fun m => { m with unsealed := [rec0] }).mgt.unsealed ≠ [] ∧ State.reset.mgt.segments.length < 4096 ∧ (State.reset.reg .sec 0x008).getLsbD 0 = false ∧
    ((State.reset.setReg .sec 0x008 1).reg .sec 0x008).getLsbD 0 = true ∧ (pfLog 16).inOne pf0 (pfLog 16).logAddr (16 * 65536) = true ∧ (pfLog 33).inOne pf0 (pfLog 33).logAddr (33 * 65536) = false ∧
    ((pfLog 16).reg .mgt 0x054).toNat % 8192 = 16 ∧ State.reset.mgt.logRun = none ∧ ((pfLog 16).modMgt fun m => { m with logRun := some ⟨0x200000, 1, 16, 0⟩ }).mgt.logRun ≠ none ∧
    ((pfLog 16).tick.logCopy ⟨0x200000, 1, 16, 0⟩ []).2 = true ∧ State.reset.inOne pf0 0x200000 (16 * 65536) = false ∧ (onFlash (pfLog 16)).tick.ready pf0 [] [(0x200000, 65536)] = false ∧ (stage 11).mgt.stage = 11 ∧
    mapGet none { State.reset with holdWr := mapSet none [] (regKey .mgt 0x018) (some 7) }.holdWr (regKey .mgt 0x018) = some 7 := by decide +kernel
theorem wit_rtc_unlocked : ∀ r, regAt .mgt 0x01C = some r → State.reset.locked .mgt r = false := by
  intro r h
  have : regAt .mgt 0x01C = some ((regAt .mgt 0x01C).get (by decide)) := by simp
  rw [this, Option.some.injEq] at h
  subst h
  decide +kernel
/-- The RTC takes the two halves written (Table 20.2) and the log a TIME record. -/
theorem test_rtc : (got (exec (.rtcSet 1) { State.reset with holdWr := mapSet none [] (regKey .mgt 0x018) (some 7) }) fun u => (u.mgt.rtc, u.mgt.unsealed.map (·.ty))) = some (0x100000007, [12]) := by decide +kernel
theorem wit_StepRunsFrontCommand : State.reset.pending = [] := rfl
theorem wit_MemoryCanonicalKept : live.memOk = true ∧ (({ live with pending := [.flrPf0] } : State).memOk = true ∧ ∃ t, step { live with pending := [.flrPf0] } = .next t) := by
  refine ⟨by decide +kernel, by decide +kernel, ?_⟩
  exact ⟨_, rfl⟩
theorem wit_QueueClockMessagesKept : ∃ t, exec (.inputDip sample0) State.reset = .next t := ⟨_, rfl⟩
/-- A packet with a payload of one block, and one without: the lengths agree with the header. -/
theorem wit_PacketRoundTrip : ∀ k ∈ ([outward, ⟨mkHeader 2 0 5 0 0 4 2 0 0 0 1 0 0, List.replicate 64 0, [false]⟩] : List Packet),
    k.hdr.toNat % 256 ≠ 0 ∧ k.plen ≤ 8 ∧ k.pay.length = 32 * k.plen ∧ k.marks.length = (k.plen + 1) / 2 ∧ 0 < k.slots.length := by decide +kernel

/-! Whether a bundle verifies rests on keys that the spec does not give (log 40): where the root hashes and the signature checks say yes, a component verifies. -/

/-- SHA-384 of no bytes (FIPS 180-4). -/
def emptyDigest : List Byte := toBytesLE 48 0x5BB99848F1D21AD5FB656FE7BFDE4E27DAE1F663BFC70C4C4307BE1411B7FD216AE3B1B17E32D94C3896AC51A760B038
theorem emptyDigest_eq : sha384 [] = emptyDigest := by decide +kernel
/-- A component of kind 1 without a body. -/
def comp : List Byte := toBytesLE 32 (packed [(0, compMagic), (4, 1), (6, 1)]) ++ emptyDigest ++ List.replicate 1584 0
def keysAgree : Prop :=
  sha384 (List.replicate 96 0) = Config.rootHash 0 0 ∧ sha384 (List.replicate 48 0) = Config.rootHash 1 0 ∧ ∀ i a b c, Config.sigOk i a b c = true
theorem wit_verify (h : keysAgree) : ∃ c, State.reset.sec.verify 1 comp = .ok c := by
  obtain ⟨ha, hb, hc⟩ := h
  have h1 : compFormed comp 1 = true := by decide +kernel
  have h2 : bytesField comp 8 4 = 0 ∧ bytesField comp 0x0E 1 = 0 ∧ bytesField comp 0x0F 1 = 0 ∧ bytesField comp 0x0C 2 = 0 := by decide +kernel
  have h3 : (comp.drop 0x100).take 96 = List.replicate 96 0 ∧ (comp.drop 0x160).take 48 = List.replicate 48 0 ∧ (comp.drop 0x20).take 48 = emptyDigest := by decide +kernel
  have hz : State.reset.sec.krev = 0 := rfl
  simp only [Sec.verify, h1, h2, h3, emptyDigest_eq, hz, hc, List.take_zero]
  rw [if_neg (by simp), if_neg (fun g => g.elim (fun g => g ha) fun g => g.elim (fun g => g hb) fun g => by simp at g), if_neg (by simp), if_neg (by simp), if_neg (by simp), if_neg (fun g => Nat.not_lt_zero _ g.2.2),
    if_neg (by simp)]
  exact ⟨_, rfl⟩

end Sys2Proof.Tests
end

section
/-! SUPPORT. What a host's access of a register comes to: an access that the device takes, the events of a status register and its clear, and the record of a rejected write. -/
namespace Sys2Proof.Machine

/-! ### What signals and events leave -/

/-- What a function's page says of the last rejected write: its offset, its cause and COUNT (R50). -/
def HostFn.rejected (h : HostFn) : Word × BitVec 3 × BitVec 16 := (h.rejAddr, h.rejCause, h.rejCount)

/-- The second state is the first but for messages to hosts, sent or held, and counters; the functions' records of rejected writes are as they were. -/
def State.signalStep (s t : State) : Prop := ∃ h m c, t = { s with host := h, sent := m, counters := c } ∧ ∀ f : Fn, h[f].rejected = s.host[f].rejected

/-- The second state takes host accesses where the first does, and has its records of rejected writes. -/
structure State.sameAccess (s t : State) : Prop where
  up       : t.up = s.up
  barOpen  : ∀ f, t.barOpen f = s.barOpen f
  rejected : ∀ f : Fn, t.host[f].rejected = s.host[f].rejected

theorem signalStep_refl (s : State) : s.signalStep s := ⟨_, _, _, rfl, fun _ => rfl⟩
theorem signalStep_stat {s t : State} (h : s.signalStep t) (r : StatReg) : t.stat r = s.stat r := by
  obtain ⟨_, _, _, rfl, _⟩ := h
  rfl
theorem signalStep_sameAccess {s t : State} (h : s.signalStep t) : s.sameAccess t := by
  obtain ⟨_, _, _, rfl, hrej⟩ := h
  exact ⟨rfl, fun _ => rfl, hrej⟩
theorem sameAccess_trans {s t u : State} (h : s.sameAccess t) (k : t.sameAccess u) : s.sameAccess u :=
  ⟨k.up.trans h.up, fun f => (k.barOpen f).trans (h.barOpen f), fun f => (k.rejected f).trans (h.rejected f)⟩

theorem count_signalStep (s : State) (w : Option StallId) (c k : Nat) : s.signalStep (s.count w c k) := ⟨_, _, _, rfl, fun _ => rfl⟩
theorem modHost_signalStep (s : State) (f : Fn) (g : HostFn → HostFn) (hg : (g s.host[f]).rejected = s.host[f].rejected) : s.signalStep (s.modHost f g) := by
  refine ⟨_, _, _, rfl, fun k => ?_⟩
  change (s.modHost f g).host[k].rejected = _
  by_cases e : k = f
  · subst e
    rw [modHost_same, hg]
  · rw [modHost_other s f k g e]
theorem send_signalStep (s : State) (f : Fn) (m : HostMsg) : s.signalStep (s.send f m) := by
  unfold State.send
  split
  · exact ⟨_, _, _, rfl, fun _ => rfl⟩
  · exact modHost_signalStep s f _ rfl
theorem signal_signalStep (s : State) (f : Fn) (vec : Nat) : s.signalStep (s.signal f vec) := by
  unfold State.signal
  split
  · exact modHost_signalStep s f _ rfl
  · exact send_signalStep s f _
theorem signalEvent_signalStep (s : State) (f : Fn) (b : Block) (o : Nat) : s.signalStep (s.signalEvent f b o) := by
  simp only [State.signalEvent]
  split
  · exact signal_signalStep s f _
  · exact signalStep_refl s

theorem stat_setStat_other (s : State) (r k : StatReg) (v : Status) (h : k.code ≠ r.code) : (s.setStat r v).stat k = s.stat k := by
  simp [State.stat, mapGet_mapSet_other _ _ _ _ _ h]
/-- The summary in GLB_STATUS is another register's than the event's own. -/
theorem code_ne_glb (r : StatReg) (h : r ≠ .glb) : r.code ≠ StatReg.glb.code := by
  cases r with
  | glb => exact absurd rfl h
  | stl n => simp only [StatReg.code]; omega
  | fab p => simp only [StatReg.code]; omega
  | til t => simp only [StatReg.code]; omega
  | vf n => simp only [StatReg.code]; omega
  | chn | mem | ftl | trf | pwr | ras | sec | mgt | txt | src | gth => decide

/-- The summary bits of an event leave the event's own register (Table 2.5). -/
theorem raiseOne_glb_stat (s : State) (r : StatReg) (b : BitVec 24) (h : r ≠ .glb) : (s.raiseOne .glb b).stat r = s.stat r :=
  stat_setStat_other s _ _ _ (code_ne_glb r h)
theorem raiseOne_sameAccess (s : State) (r : StatReg) (b : BitVec 24) : s.sameAccess (s.raiseOne r b) := ⟨rfl, fun _ => rfl, fun _ => rfl⟩

/-- An event sets its register, may set the summary, and signals (R34, R414). -/
theorem raise_cases (s : State) (r : StatReg) (b : BitVec 24) :
    ∃ t : State, t.signalStep (s.raise r b) ∧ (t = s.raiseOne r b ∨ r ≠ .glb ∧ t = (s.raiseOne r b).raiseOne .glb r.glbBit) := by
  cases r with
  | glb => exact ⟨_, signalEvent_signalStep _ _ _ _, .inl rfl⟩
  | vf n => exact ⟨_, signalEvent_signalStep _ _ _ _, .inl rfl⟩
  | ras => exact ⟨_, signalStep_refl _, .inl rfl⟩
  | stl | chn | mem | ftl | fab | trf | pwr | sec | mgt | txt | src | gth | til =>
    exact ⟨_, signalEvent_signalStep _ _ _ _, .inr ⟨nofun, rfl⟩⟩
/-- An event leaves its register with its bits set and its SEQ stepped. -/
@[simp] theorem raise_stat (s : State) (r : StatReg) (b : BitVec 24) : (s.raise r b).stat r = (s.stat r).raise s.now b := by
  have own : (s.raiseOne r b).stat r = (s.stat r).raise s.now b := stat_setStat_same s r _
  obtain ⟨t, hsig, ht⟩ := raise_cases s r b
  rw [signalStep_stat hsig r]
  obtain rfl | ⟨hne, rfl⟩ := ht
  · exact own
  · exact (raiseOne_glb_stat _ r _ hne).trans own
theorem raise_sameAccess (s : State) (r : StatReg) (b : BitVec 24) : s.sameAccess (s.raise r b) := by
  obtain ⟨t, hsig, rfl | ⟨_, rfl⟩⟩ := raise_cases s r b
  · exact sameAccess_trans (raiseOne_sameAccess s r b) (signalStep_sameAccess hsig)
  · exact sameAccess_trans (sameAccess_trans (raiseOne_sameAccess s r b) (raiseOne_sameAccess _ _ _)) (signalStep_sameAccess hsig)

/-- The events of a BCLK that a register has, which may be none (R35). -/
def State.raiseAny (s : State) (r : StatReg) (b : BitVec 24) : State := if b = 0 then s else s.raise r b
theorem raiseAny_bits (s : State) (r : StatReg) (b : BitVec 24) : ((s.raiseAny r b).stat r).bits = (s.stat r).bits ||| b := by
  unfold State.raiseAny
  split
  case isTrue h => simp [h]
  case isFalse => rw [raise_stat]; rfl
theorem raiseAny_seq (s : State) (r : StatReg) (b : BitVec 24) (h : (s.stat r).stamp ≠ s.now) :
    ((s.raiseAny r b).stat r).seq = (s.stat r).seq + if b = 0 then 0 else 1 := by
  unfold State.raiseAny
  split
  case isTrue => simp
  case isFalse => simp [Status.raise, h]
theorem raiseAny_sameAccess (s : State) (r : StatReg) (b : BitVec 24) : s.sameAccess (s.raiseAny r b) := by
  unfold State.raiseAny
  split
  · exact signalStep_sameAccess (signalStep_refl s)
  · exact raise_sameAccess s r b

/-! ### The clear of a status register (R36, R51) -/

/-- The status register whose bit 0 is a function's CFG_REJECT (R50). -/
def rejectStat (f : Fn) : StatReg := match stallOf f with | some n => .vf n | none => .glb

theorem eq_vfOf (f : Fn) (n : StallId) (h : stallOf f = some n) : f = vfOf n := by
  unfold stallOf at h
  split at h
  · cases h; rfl
  · cases h
theorem eq_pf0 (f : Fn) (h : stallOf f = none) : f = pf0 := by
  unfold stallOf at h
  split at h
  · cases h
  · exact Fin.ext (by simp only [pf0]; omega)

section
variable (s : State) (x : StatReg) (mask v : Word)

/-- A write without the register's SEQ clears nothing. -/
theorem clearStat_stale (h : v.toNat / 2 ^ 24 ≠ (s.stat x).seq.toNat) : s.clearStat x mask v = s := if_neg h
/-- A write with the register's SEQ clears the bits it names, and may change pages of functions. -/
theorem clearStat_current (h : v.toNat / 2 ^ 24 = (s.stat x).seq.toNat) :
    ∃ p, s.clearStat x mask v = { s.setStat x { s.stat x with bits := (s.stat x).bits &&& ~~~((v &&& mask).setWidth 24) } with host := p } := by
  simp only [State.clearStat, h, if_true]
  split
  · split
    · exact ⟨_, rfl⟩
    · exact ⟨_, rfl⟩
  · split
    · exact ⟨_, rfl⟩
    · exact ⟨_, rfl⟩
  · exact ⟨_, rfl⟩
theorem clearStat_stat : (s.clearStat x mask v).stat x = { s.stat x with
    bits := if v.toNat / 2 ^ 24 = (s.stat x).seq.toNat then (s.stat x).bits &&& ~~~((v &&& mask).setWidth 24) else (s.stat x).bits } := by
  by_cases h : v.toNat / 2 ^ 24 = (s.stat x).seq.toNat
  · obtain ⟨p, hp⟩ := clearStat_current s x mask v h
    rw [hp, if_pos h]
    exact stat_setStat_same s x _
  · rw [clearStat_stale s x mask v h, if_neg h]
theorem clearStat_frame : (s.clearStat x mask v).now = s.now ∧ (s.clearStat x mask v).up = s.up ∧ ∀ f, (s.clearStat x mask v).barOpen f = s.barOpen f := by
  by_cases h : v.toNat / 2 ^ 24 = (s.stat x).seq.toNat
  · obtain ⟨p, hp⟩ := clearStat_current s x mask v h
    rw [hp]
    exact ⟨rfl, rfl, fun _ => rfl⟩
  · rw [clearStat_stale s x mask v h]
    exact ⟨rfl, rfl, fun _ => rfl⟩
/-- Clearing a function's CFG_REJECT zeroes its COUNT. -/
theorem clearStat_rejCount (f : Fn) (h : v.toNat / 2 ^ 24 = (s.stat (rejectStat f)).seq.toNat) (hbit : (v &&& mask).getLsbD 0 = true) :
    (s.clearStat (rejectStat f) mask v).host[f].rejCount = 0 := by
  have hclr : ((v &&& mask).setWidth 24).getLsbD 0 = true := by simpa using hbit
  cases hf : stallOf f with
  | some n =>
    have hx : rejectStat f = .vf n := by simp [rejectStat, hf]
    rw [hx] at h ⊢
    rw [eq_vfOf f n hf]
    simp only [State.clearStat, h, if_true, hclr, modHost_same]
  | none =>
    have hx : rejectStat f = .glb := by simp [rejectStat, hf]
    rw [hx] at h ⊢
    rw [eq_pf0 f hf]
    simp only [State.clearStat, h, if_true, hclr, modHost_same]
end

/-! ### Writes that the checks reject (R49, R50) -/

/-- A rejected write is recorded, and raises the function's CFG_REJECT. -/
theorem reject_signalStep (s : State) (f : Fn) (off : Nat) (cause : BitVec 3) :
    ((s.modHost f fun h => { h with rejAddr := BitVec.ofNat 32 off, rejCause := cause, rejCount := if h.rejCount = 0xFFFF then h.rejCount else h.rejCount + 1 }).raise
      (rejectStat f) 0x1).signalStep (s.reject f off cause) := by
  unfold State.reject rejectStat
  cases stallOf f with
  | some n => exact signalStep_refl _
  | none => exact count_signalStep _ _ _ _
theorem reject_up (s : State) (f : Fn) (off : Nat) (cause : BitVec 3) : (s.reject f off cause).up = s.up :=
  (sameAccess_trans (raise_sameAccess _ _ _) (signalStep_sameAccess (reject_signalStep s f off cause))).up
theorem reject_rejected (s : State) (f : Fn) (off : Nat) (cause : BitVec 3) : (s.reject f off cause).host[f].rejected =
    (BitVec.ofNat 32 off, cause, if s.host[f].rejCount = 0xFFFF then s.host[f].rejCount else s.host[f].rejCount + 1) := by
  have hsame := sameAccess_trans (raise_sameAccess _ _ _) (signalStep_sameAccess (reject_signalStep s f off cause))
  rw [hsame.rejected f, modHost_same]
  rfl
theorem reject_stat (s : State) (f : Fn) (off : Nat) (cause : BitVec 3) : (s.reject f off cause).stat (rejectStat f) = (s.stat (rejectStat f)).raise s.now 0x1 :=
  (signalStep_stat (reject_signalStep s f off cause) _).trans (raise_stat _ _ _)

/-! ### A word written, by the kind of its register -/

section
variable {s : State} {f : Fn} {off : BitVec 28} {be : BitVec 4} {v : Word} {ev : BitVec 24} {b : Block} {o : Nat} {r : RegDesc} {x : StatReg}

/-- A word to an unmapped offset, or part of a word, is rejected. -/
theorem writeWord_rejected (hopen : s.barOpen f = true) (h : decodeOff f (barOff f off) = none ∨ be ≠ 0xF) :
    s.writeWord f off be v ev = s.reject f (barOff f off) (if decodeOff f (barOff f off) = none then 3 else 2) := by
  cases hd : decodeOff f (barOff f off) with
  | none => simp [State.writeWord, hopen, hd]
  | some p =>
    have hbe : be ≠ 0xF#4 := h.resolve_left (by simp [hd])
    simp [State.writeWord, hopen, hd, hbe]
/-- A write of a status register clears it, and then the events of the BCLK are set (R36). -/
theorem writeWord_status (hopen : s.barOpen f = true) (hd : decodeOff f (barOff f off) = some (b, o)) (hr : regAt b o = some r) (hk : r.kind = .status)
    (hx : statAt b o = some x) (hl : s.locked b r = false ∨ b = .glb) :
    s.writeWord f off 0xF v ev = (s.clearStat x r.mask v).raiseAny x (ev &&& r.mask.setWidth 24) := by
  have hlock : (s.locked b r && !decide (b = .glb)) = false := by
    obtain h | h := hl <;> simp [h]
  simp [State.writeWord, hopen, hd, hr, hk, hx, hlock, State.raiseAny]
/-- A write of a register of class L or T that is not locked acts. -/
theorem writeWord_rw (hopen : s.barOpen f = true) (hd : decodeOff f (barOff f off) = some (b, o)) (hr : regAt b o = some r) (hk : r.kind = .rw) (hc : r.cls ≠ .q)
    (hl : s.locked b r = false ∨ b = .glb) : s.writeWord f off 0xF v ev = s.writeRw b o r v := by
  have hlock : (s.locked b r && !decide (b = .glb)) = false := by
    obtain h | h := hl <;> simp [h]
  simp [State.writeWord, hopen, hd, hr, hk, hc, hlock]
/-- PF0's BAR0 is always open. -/
theorem barOpen_pf0 (s : State) : s.barOpen pf0 = true := rfl
end

/-! ### Accesses that the device takes -/

section
variable {s : State} {f : Fn} {off : BitVec 28} {g : State → State}

/-- An access to a device that is up, over a link that is up, is taken. -/
theorem bar_taken (hup : s.up = true) (hlink : s.mgt.linkUp = true) : bar f off g s = .next (g s.tick) := by
  have htick : s.tick.up = true := hup
  simp [bar, htick, hlink]
/-- A write that leaves the device up is followed by what it lets start. -/
theorem barw_taken (hup : s.up = true) (hlink : s.mgt.linkUp = true) (hg : (g s.tick).up = true) : barw f off g s = .next (g s.tick).settle := by
  rw [barw, bar_taken hup hlink]
  simp [hg]
end

end Sys2Proof.Machine
end

section
/-! SUPPORT. What the reads of a 64-bit value's halves and the writes of a class L pair's halves come to (R28, R29, R45). -/
namespace Sys2Proof.Machine

section
variable {s : State} {b : Block} {o lo : Nat} {high : Bool} {v w : Word} {r : RegDesc}

/-- The registers with split values have no RCTRL. -/
theorem rctrlAt_of_splitAt (h : splitAt b o = some (lo, high)) : rctrlAt b o = none := by
  cases b with
  | mem | sec | mgt => rfl
  | glb | stl | chn | ftl | fab | trf | pwr | ras | txt | src | gth | til | pfPages | vfId | vfDoor | vfCnt | vfRing => cases h
theorem ne_chn_of_splitAt (h : splitAt b o = some (lo, high)) : b ≠ .chn := by
  rintro rfl
  cases h
theorem writeRw_split (h : splitAt b o = some (lo, high)) : s.writeRw b o r v = s.writeHalf b lo high v := by
  simp [State.writeRw, rctrlAt_of_splitAt h, h]

/-- A low half that is held reads as written. -/
theorem readReg_held_low (h : splitAt b o = some (lo, false)) (hr : regAt b o = some r) (hk : r.kind = .rw) (hv : mapGet none s.holdWr (regKey b lo) = some v) :
    s.readReg b o = v := by
  simp [State.readReg, hr, hk, rctrlAt_of_splitAt h, ne_chn_of_splitAt h, h, hv]

/-- The low half waits for the high half. -/
theorem writeHalf_low_holdWr (s : State) (b : Block) (lo : Nat) (v : Word) : mapGet none (s.writeHalf b lo false v).holdWr (regKey b lo) = some v := by
  simp [State.writeHalf]
/-- The high half takes the low half with it; only the RTC does more. -/
theorem writeHalf_high (hw : mapGet none s.holdWr (regKey b lo) = some w) (h : ¬ (b = .mgt ∧ lo = 0x018)) :
    s.writeHalf b lo true v = (({ s with holdWr := mapSet none s.holdWr (regKey b lo) none } : State).setReg b lo w).setReg b (lo + 4) v := by
  simp [State.writeHalf, hw, h]
/-- The two halves are two registers. -/
theorem regKey_add_four (b : Block) (lo : Nat) : regKey b (lo + 4) = regKey b lo + 4 := by
  cases b <;> exact (Nat.add_assoc _ _ _).symm
end

/-- A full word's byte enables name all four bytes. -/
theorem enabled_full (v : Word) : enabled 0xF v = toBytesLE 4 v.toNat := by
  simp [enabled, toBytesLE, List.range_succ]

section
variable (s : State) (f : Fn) (b : Block) (o : Nat) (be : BitVec 4)

/-- The state in which a read begins: it has answered nothing yet. -/
def State.unanswered (s : State) : State := { s with answer := [] }
@[simp] theorem unanswered_answer : s.unanswered.answer = [] := rfl
/-- What a register shows does not depend on what was last answered. -/
@[simp] theorem unanswered_readFn : s.unanswered.readFn f b o = s.readFn f b o := rfl

section
variable {b o} (h : lowHalf b o = true)
include h

/-- The read of a low half answers it. -/
theorem readAt_low_answer : (s.readAt f b o be).answer = s.answer ++ enabled be (s.readFn f b o) := by simp [State.readAt, h]
/-- The read of a low half holds the high half. -/
theorem readAt_low_holdRd : mapGet none (s.readAt f b o be).holdRd (regKey b (o + 4)) = some (s.readFn f b (o + 4)) := by simp [State.readAt, h]
end

section
variable {s b o} {w : Word} (h : lowHalf b o = false) (hw : mapGet none s.holdRd (regKey b o) = some w)
include h hw

/-- The read of a register whose value is held answers that value. -/
theorem readAt_held_answer : (s.readAt f b o be).answer = s.answer ++ enabled be w := by simp [State.readAt, h, hw]
/-- The read of a register whose value is held releases it. -/
theorem readAt_held_holdRd : mapGet none (s.readAt f b o be).holdRd (regKey b o) = none := by simp [State.readAt, h, hw]
end
end

theorem barRead_mapped {s : State} {f : Fn} {off : BitVec 28} {be : BitVec 4} {b : Block} {o : Nat} (hd : decodeOff f (barOff f off) = some (b, o)) :
    s.barRead f off be = s.readAt f b o be := by
  simp [State.barRead, hd]

end Sys2Proof.Machine
end

section
/-! PROOFS. Status registers, GLB_LOCK and split values (O27): one theorem per command and outcome, and the statement put together from them. -/
namespace Sys2Proof.Machine

section
variable {s : State} {f : Fn} {off : BitVec 28} {be : BitVec 4} {v w : Word} {ev : BitVec 24} {b : Block} {o lo : Nat} {r : RegDesc} {x : StatReg}

/-! ### The commands -/

theorem statusRegisterClear_arm (f : Fn) (off : BitVec 28) (v : Word) (ev : BitVec 24) (late : Option LateWrite) (s : State) :
    exec (.statusRegisterClear f off v ev late) s = execStatusRegisterClear f off v ev late s := rfl
theorem glbLockWrite_arm (v : Word) (s : State) : exec (.glbLockWrite v) s = execGlbLockWrite v s := rfl
theorem lowHalfRead_arm (f : Fn) (y : BarRead) (s : State) : exec (.lowHalfRead f y) s = execLowHalfRead f y s := rfl
theorem splitValueWrite_arm (f : Fn) (off : BitVec 28) (v : Word) (s : State) : exec (.splitValueWrite f off v) s = execSplitValueWrite f off v s := rfl

/-! ### Status registers -/

/-- The clear that zeroes a function's COUNT, and the events after it. -/
theorem clear_rejCount (hseq : v.toNat / 2 ^ 24 = (s.stat (rejectStat f)).seq.toNat) (hbit : (v &&& r.mask).getLsbD 0 = true) :
    ((s.clearStat (rejectStat f) r.mask v).raiseAny (rejectStat f) ev).host[f].rejCount = 0 := by
  have hsame := raiseAny_sameAccess (s.clearStat (rejectStat f) r.mask v) (rejectStat f) ev
  exact (congrArg (·.2.2) (hsame.rejected f)).trans (clearStat_rejCount s r.mask v f hseq hbit)

section
variable (hup : s.up = true) (hlink : s.mgt.linkUp = true) (hopen : s.barOpen f = true) (hd : decodeOff f (barOff f off) = some (b, o)) (hr : regAt b o = some r)
  (hk : r.kind = .status) (hx : statAt b o = some x) (hl : s.locked b r = false ∨ b = .glb)
include hup hlink hopen hd hr hk hx hl

/-- STATUS_REGISTER_CLEAR: the clear, then the events of the BCLK (R36). -/
theorem exec_statusRegisterClear :
    exec (.statusRegisterClear f off v ev none) s = .next ((s.tick.clearStat x r.mask v).raiseAny x (ev &&& r.mask.setWidth 24)).settle := by
  have hw : s.tick.writeWord f off 0xF v ev = _ := writeWord_status hopen hd hr hk hx hl
  obtain ⟨_, hcup, _⟩ := clearStat_frame s.tick x r.mask v
  rw [statusRegisterClear_arm, ← hw]
  refine barw_taken hup hlink ?_
  simp only [hw]
  exact (raiseAny_sameAccess _ _ _).up.trans (hcup.trans hup)

/-- A late write of the function that the checks reject is recorded after the clear (R51). -/
theorem exec_statusRegisterClear_late (y : LateWrite) (hy : decodeOff f (barOff f y.off) = none ∨ y.be ≠ 0xF) :
    exec (.statusRegisterClear f off v ev (some y)) s =
      .next (((s.tick.clearStat x r.mask v).raiseAny x (ev &&& r.mask.setWidth 24)).reject f (barOff f y.off) (if decodeOff f (barOff f y.off) = none then 3 else 2)).settle := by
  obtain ⟨_, hcup, hcopen⟩ := clearStat_frame s.tick x r.mask v
  have hsame := raiseAny_sameAccess (s.tick.clearStat x r.mask v) x (ev &&& r.mask.setWidth 24)
  have hw : s.tick.writeWord f off 0xF v ev = _ := writeWord_status hopen hd hr hk hx hl
  have hlate := writeWord_rejected (v := y.v) (ev := 0) ((hsame.barOpen f).trans ((hcopen f).trans hopen)) hy
  rw [statusRegisterClear_arm, ← hlate, ← hw]
  refine barw_taken hup hlink ?_
  simp only [hw, hlate, reject_up, hsame.up, hcup]
  exact hup

theorem statusRegisterClear_result : ∃ u : State, exec (.statusRegisterClear f off v ev none) s = .next u.settle ∧
    (u.stat x).bits = ((if v.toNat / 2 ^ 24 = (s.stat x).seq.toNat then (s.stat x).bits &&& ~~~((v &&& r.mask).setWidth 24) else (s.stat x).bits) ||| (ev &&& r.mask.setWidth 24)) ∧
    ((s.stat x).stamp ≤ s.now → (u.stat x).seq = (s.stat x).seq + if ev &&& r.mask.setWidth 24 = 0 then 0 else 1) := by
  have hstat := clearStat_stat s.tick x r.mask v
  obtain ⟨hnow, _, _⟩ := clearStat_frame s.tick x r.mask v
  refine ⟨_, exec_statusRegisterClear hup hlink hopen hd hr hk hx hl, ?_, fun hstamp => ?_⟩
  · rw [raiseAny_bits, hstat]
    rfl
  · have hlater : ((s.tick.clearStat x r.mask v).stat x).stamp ≠ (s.tick.clearStat x r.mask v).now := by
      rw [hstat, hnow]
      exact Nat.ne_of_lt (Nat.lt_succ_of_le hstamp)
    rw [raiseAny_seq _ _ _ hlater, hstat]
    rfl

theorem statusRegisterClear_stale (hseq : v.toNat / 2 ^ 24 ≠ (s.stat x).seq.toNat) : exec (.statusRegisterClear f off v 0 none) s = .next s.tick.settle := by
  rw [exec_statusRegisterClear hup hlink hopen hd hr hk hx hl, clearStat_stale s.tick x r.mask v hseq]
  simp [State.raiseAny]

theorem statusRegisterClear_rejCount (hrej : x = rejectStat f) (hseq : v.toNat / 2 ^ 24 = (s.stat x).seq.toNat) (hbit : (v &&& r.mask).getLsbD 0 = true) :
    ∃ u : State, exec (.statusRegisterClear f off v ev none) s = .next u.settle ∧ u.host[f].rejCount = 0 := by
  subst hrej
  exact ⟨_, exec_statusRegisterClear hup hlink hopen hd hr hk hx hl, clear_rejCount hseq hbit⟩

theorem statusRegisterClear_late_result (hrej : x = rejectStat f) (hseq : v.toNat / 2 ^ 24 = (s.stat x).seq.toNat) (hbit : (v &&& r.mask).getLsbD 0 = true)
    (y : LateWrite) (hy : decodeOff f (barOff f y.off) = none ∨ y.be ≠ 0xF) :
    ∃ u : State, exec (.statusRegisterClear f off v ev (some y)) s = .next u.settle ∧ u.host[f].rejCount = 1 ∧ u.host[f].rejAddr = BitVec.ofNat 32 (barOff f y.off) ∧
      u.host[f].rejCause = (if decodeOff f (barOff f y.off) = none then 3 else 2) ∧ (u.stat x).bits.getLsbD 0 = true := by
  subst hrej
  have hzero := clear_rejCount (s := s.tick) (ev := ev &&& r.mask.setWidth 24) hseq hbit
  refine ⟨_, exec_statusRegisterClear_late hup hlink hopen hd hr hk hx hl y hy, ?_⟩
  generalize (s.tick.clearStat (rejectStat f) r.mask v).raiseAny (rejectStat f) (ev &&& r.mask.setWidth 24) = t at hzero ⊢
  have hrecord := reject_rejected t f (barOff f y.off) (if decodeOff f (barOff f y.off) = none then 3 else 2)
  simp only [hzero, HostFn.rejected, Prod.mk.injEq] at hrecord
  obtain ⟨haddr, hcause, hcount⟩ := hrecord
  refine ⟨hcount, haddr, hcause, ?_⟩
  simp [reject_stat, Status.raise]
end

section
variable (hup : s.up = true) (hlink : s.mgt.linkUp = true)
include hup hlink

/-! ### GLB_LOCK -/

theorem glbLockWrite_result (v : Word) : ∃ u : State, exec (.glbLockWrite v) s = .next u.settle ∧ u.reg .glb 0x008 = s.reg .glb 0x008 ||| (v &&& 0x3FF) ∧
    ∀ c p, regKey c p ≠ regKey .glb 0x008 → u.reg c p = s.reg c p := by
  have hw : s.tick.writeWord pf0 0x008 0xF v 0 = s.tick.setReg .glb 0x008 (s.tick.reg .glb 0x008 ||| (v &&& 0x3FF)) :=
    writeWord_rw (b := .glb) (o := 0x008) (barOpen_pf0 _) (by decide) rfl rfl nofun (.inr rfl)
  refine ⟨_, (glbLockWrite_arm v s).trans (barw_taken hup hlink ?_), ?_, fun c p h => ?_⟩
  · simp only [hw]
    exact hup
  · simp only [hw, reg_setReg_same]
    rfl
  · simp only [hw, reg_setReg_other _ _ _ _ _ _ h]
    rfl

/-! ### Reads of 64-bit values -/

/-- LOW_HALF_READ reads its words in turn (R28). -/
theorem exec_lowHalfRead (y : BarRead) : exec (.lowHalfRead f y) s = .next (s.tick.unanswered.barReads f y.off (y.be :: y.more)) :=
  (lowHalfRead_arm f y s).trans (bar_taken hup hlink)

theorem lowHalfRead_low (hd : decodeOff f (barOff f off) = some (b, o)) (hlow : lowHalf b o = true) :
    ∃ u : State, exec (.lowHalfRead f ⟨off, be, []⟩) s = .next u ∧ mapGet none u.holdRd (regKey b (o + 4)) = some (s.tick.readFn f b (o + 4)) ∧
      u.answer = enabled be (s.tick.readFn f b o) := by
  refine ⟨_, exec_lowHalfRead hup hlink _, ?_⟩
  simp only [State.barReads, barRead_mapped hd]
  exact ⟨readAt_low_holdRd _ _ _ hlow, readAt_low_answer _ _ _ hlow⟩

/-- The second word of one access is the high half that the first word held. -/
theorem lowHalfRead_both (hd : decodeOff f (barOff f off) = some (b, o)) (hlow : lowHalf b o = true) (hd' : decodeOff f (barOff f (off + 4)) = some (b, o + 4))
    (hhigh : lowHalf b (o + 4) = false) :
    ∃ u : State, exec (.lowHalfRead f ⟨off, 0xF, [0xF]⟩) s = .next u ∧ u.answer = toBytesLE 4 (s.tick.readFn f b o).toNat ++ toBytesLE 4 (s.tick.readFn f b (o + 4)).toNat := by
  refine ⟨_, exec_lowHalfRead hup hlink _, ?_⟩
  simp only [State.barReads, barRead_mapped hd, barRead_mapped hd']
  rw [readAt_held_answer _ _ hhigh (readAt_low_holdRd _ _ _ hlow), readAt_low_answer _ _ _ hlow]
  simp only [unanswered_answer, unanswered_readFn, enabled_full, List.nil_append]

theorem lowHalfRead_held (hd : decodeOff f (barOff f off) = some (b, o)) (hhigh : lowHalf b o = false) (hw : mapGet none s.holdRd (regKey b o) = some w) :
    ∃ u : State, exec (.lowHalfRead f ⟨off, 0xF, []⟩) s = .next u ∧ u.answer = toBytesLE 4 w.toNat ∧ mapGet none u.holdRd (regKey b o) = none := by
  have hheld : mapGet none s.tick.unanswered.holdRd (regKey b o) = some w := hw
  refine ⟨_, exec_lowHalfRead hup hlink _, ?_⟩
  simp only [State.barReads, barRead_mapped hd]
  exact ⟨(readAt_held_answer _ _ hhigh hheld).trans (enabled_full w), readAt_held_holdRd _ _ hhigh hheld⟩

/-! ### Writes of split values -/

section
variable {high : Bool} (hd : decodeOff pf0 (barOff pf0 off) = some (b, o)) (hsplit : splitAt b o = some (lo, high)) (hr : regAt b o = some r) (hl : s.locked b r = false)
  (hk : r.kind = .rw) (hc : r.cls ≠ .q)
include hd hsplit hr hl hk hc

/-- SPLIT_VALUE_WRITE of a half that leaves the device up. -/
theorem exec_splitValueWrite (hhalf : (s.tick.writeHalf b lo high v).up = true) : exec (.splitValueWrite pf0 off v) s = .next (s.tick.writeHalf b lo high v).settle := by
  have hw : s.tick.writeWord pf0 off 0xF v 0 = s.tick.writeHalf b lo high v :=
    (writeWord_rw (s := s.tick) (barOpen_pf0 _) hd hr hk hc (.inl hl)).trans (writeRw_split hsplit)
  rw [← hw] at hhalf ⊢
  exact (splitValueWrite_arm pf0 off v s).trans (barw_taken hup hlink hhalf)
end

theorem splitValueWrite_low (hd : decodeOff pf0 (barOff pf0 off) = some (b, o)) (hsplit : splitAt b o = some (lo, false))
    (h : ∃ r, regAt b o = some r ∧ s.locked b r = false ∧ r.kind = .rw ∧ r.cls ≠ .q) :
    ∃ u : State, exec (.splitValueWrite pf0 off v) s = .next u.settle ∧ mapGet none u.holdWr (regKey b lo) = some v ∧ u.regs = s.regs ∧ u.readReg b o = v := by
  obtain ⟨r, hr, hl, hk, hc⟩ := h
  have hheld := writeHalf_low_holdWr s.tick b lo v
  exact ⟨_, exec_splitValueWrite hup hlink hd hsplit hr hl hk hc hup, hheld, rfl, readReg_held_low hsplit hr hk hheld⟩

theorem splitValueWrite_high (hd : decodeOff pf0 (barOff pf0 off) = some (b, o)) (hsplit : splitAt b o = some (lo, true))
    (h : ∃ r, regAt b o = some r ∧ s.locked b r = false ∧ r.kind = .rw ∧ r.cls ≠ .q) (hrtc : ¬ (b = .mgt ∧ lo = 0x018)) (hw : mapGet none s.holdWr (regKey b lo) = some w) :
    ∃ u : State, exec (.splitValueWrite pf0 off v) s = .next u.settle ∧ u.reg b lo = w ∧ u.reg b (lo + 4) = v := by
  obtain ⟨r, hr, hl, hk, hc⟩ := h
  have heq : s.tick.writeHalf b lo true v = _ := writeHalf_high hw hrtc
  have hkey : regKey b lo ≠ regKey b (lo + 4) := by rw [regKey_add_four]; omega
  have hhalf : (s.tick.writeHalf b lo true v).up = true := by
    rw [heq]
    exact hup
  refine ⟨_, exec_splitValueWrite hup hlink hd hsplit hr hl hk hc hhalf, ?_, ?_⟩
  · rw [heq, reg_setReg_other _ _ _ _ _ _ hkey, reg_setReg_same]
  · rw [heq, reg_setReg_same]
end
end

/-! ### The statement -/

/-- Settles O27: a status register's clear, GLB_LOCK's write and the halves' reads and writes, each by the theorem of its command. -/
theorem statusLockSplitResults : Obligations.StatusLockSplitResults := by
  intro s hup hlink
  refine ⟨?_, ?_, ?_, glbLockWrite_result hup hlink, ?_, ?_, ?_, ?_⟩
  · intro f off v ev b o r x hopen hd hr hk hx hl
    exact statusRegisterClear_result hup hlink hopen hd hr hk hx hl
  · intro f off v b o r x hopen hd hr hk hx hl hseq
    exact statusRegisterClear_stale hup hlink hopen hd hr hk hx hl hseq
  · intro f off v ev b o r x hopen hd hr hk hx hrej hl hseq hbit
    exact ⟨statusRegisterClear_rejCount hup hlink hopen hd hr hk hx hl hrej hseq hbit,
      statusRegisterClear_late_result hup hlink hopen hd hr hk hx hl hrej hseq hbit⟩
  · intro f off be b o hd hlow
    exact ⟨lowHalfRead_low hup hlink hd hlow, lowHalfRead_both hup hlink hd hlow⟩
  · intro f off b o w hd hhigh hw
    exact lowHalfRead_held hup hlink hd hhigh hw
  · intro off v b o lo hd hsplit h
    exact splitValueWrite_low hup hlink hd hsplit h
  · intro off v b o lo w hd hsplit h hrtc hw
    exact splitValueWrite_high hup hlink hd hsplit h hrtc hw

end Sys2Proof.Machine
end

section
/-! PROOFS. Hardware loops (O7): the address after an instruction, by the innermost loop; what loop, lbz and lbnz do to a tile; and the statement put together from them. -/
namespace Sys2Proof.Machine

/-! ### The end of a body (R92) -/

section
variable {t : Tile} {pc : Nat} {f : LoopFrame} {rest : List LoopFrame}

/-- The tile after an instruction, from the address, the loops and the counters that `loopBack` answers. -/
theorem advanceFrom_of_loopBack {n : Nat} {l : List LoopFrame} {c : Vector (BitVec 32) 4} (h : loopBack pc t.loops t.lc = (n, l, c)) :
    t.advanceFrom pc = { t with pc := n, loops := l, lc := c } := by
  simp only [Tile.advanceFrom, h]

theorem advanceFrom_no_loop (hl : t.loops = []) : t.advanceFrom pc = { t with pc := pc + 1 } := by
  have h : loopBack pc t.loops t.lc = (pc + 1, t.loops, t.lc) := by rw [hl, loopBack]
  exact advanceFrom_of_loopBack h

theorem advanceFrom_inside (hl : t.loops = f :: rest) (hne : f.last ≠ pc) : t.advanceFrom pc = { t with pc := pc + 1 } := by
  have h : loopBack pc t.loops t.lc = (pc + 1, t.loops, t.lc) := by rw [hl, loopBack, if_neg hne.symm]
  exact advanceFrom_of_loopBack h

theorem advanceFrom_repeats (hl : t.loops = f :: rest) (hend : f.last = pc) (hleft : 1 < f.left) :
    t.advanceFrom pc = { t with pc := f.first, loops := { f with left := f.left - 1 } :: rest, lc := t.lc.set f.depth (t.lc[f.depth] + 1) } := by
  refine advanceFrom_of_loopBack ?_
  rw [hl, loopBack, if_pos hend.symm, if_pos hleft]

theorem advanceFrom_leaves (hl : t.loops = f :: rest) (hend : f.last = pc) (hleft : f.left ≤ 1) :
    t.advanceFrom pc = { t with loops := rest }.advanceFrom pc := by
  have h : loopBack pc t.loops t.lc = loopBack pc rest t.lc := by
    rw [hl, loopBack, if_pos hend.symm, if_neg (Nat.not_lt.mpr hleft)]
  exact advanceFrom_of_loopBack h
end

/-! ### loop, lbz and lbnz on a tile (Table 4.5) -/

section
variable {t : Tile} {w : DyWord}

theorem loopOp_skips (hb : t.busyS [w.a] = false) (hn : (t.sreg w.a).toNat % 2 ^ 32 = 0) : loopOp w t = .jump (t.advanceFrom (t.target w)) := by
  simp only [loopOp, hb, hn, if_true, if_false, Bool.false_eq_true]

theorem loopOp_enters {k : Fin 4} (hb : t.busyS [w.a] = false) (hk : w.d.toNat = k.val) (hn : (t.sreg w.a).toNat % 2 ^ 32 ≠ 0) :
    loopOp w t =
      .go { t with lc := t.lc.set k 0, loops := { depth := k, first := t.pc + 1, last := t.target w, left := (t.sreg w.a).toNat % 2 ^ 32 } :: t.loops } := by
  have hd : Fin.ofNat 4 w.d.toNat = k := by rw [hk]; exact Fin.ofNat_val_eq_self k
  simp only [loopOp, hb, hn, hd, if_false, Bool.false_eq_true]

variable {test : BitVec 64 → Bool}

theorem leaveOp_stays (hb : t.busyS [w.a] = false) (ht : test (t.sreg w.a) = false) : leaveOp test w t = .go t := by
  simp only [leaveOp, hb, ht, if_false, Bool.false_eq_true]

theorem leaveOp_leaves {f : LoopFrame} {rest : List LoopFrame} (hb : t.busyS [w.a] = false) (ht : test (t.sreg w.a) = true) (hl : t.loops = f :: rest) :
    leaveOp test w t = .jump ({ t with loops := rest }.advanceFrom f.last) := by
  simp only [leaveOp, hb, ht, hl, if_true, if_false, Bool.false_eq_true]
end

/-! ### The instructions at the pc -/

section
variable {t : TileId} {w : DyWord} {s : State}

theorem exec_dyLoop : exec (.dyLoop t w) s = dyRun 0x39 t w (loopOp w) s := rfl
theorem exec_dyLbz : exec (.dyLbz t w) s = dyRun 0x3A t w (leaveOp (fun a => a == 0) w) s := rfl
theorem exec_dyLbnz : exec (.dyLbnz t w) s = dyRun 0x3B t w (leaveOp (fun a => a != 0) w) s := rfl

/-- lbz and lbnz in one: the instruction leaves the innermost loop where sA is 0 exactly if `z`. -/
theorem dyRun_leaveOp {op : Nat} {test : BitVec 64 → Bool} {z : Bool} (hz : ∀ a, test a = true ↔ decide (a = 0) = z) (hb : s.tiles[t].busyS [w.a] = false)
    (hat : s.atPc t op w = true) :
    (decide (s.tiles[t].sreg w.a = 0) ≠ z → dyRun op t w (leaveOp test w) s = .next (s.ends t s.tiles[t].advance)) ∧
    (∀ f rest, decide (s.tiles[t].sreg w.a = 0) = z → s.tiles[t].loops = f :: rest →
      dyRun op t w (leaveOp test w) s = .next (s.ends t ({ s.tiles[t] with loops := rest }.advanceFrom f.last))) := by
  refine ⟨fun hne => ?_, fun f rest heq hl => ?_⟩
  · exact dyRun_go hat (leaveOp_stays hb (Bool.eq_false_iff.mpr (mt (hz _).mp hne)))
  · exact dyRun_jump hat (leaveOp_leaves hb ((hz _).mpr heq) hl)
end

/-! ### The statement -/

/-- Settles O7: the instructions by what they do to a tile, the address after an instruction by the cases of the innermost loop. -/
theorem loopResults : Obligations.LoopResults := by
  refine ⟨fun t w s _ hb => ⟨?_, ?_, ?_⟩, fun t pc => ⟨?_, ?_, ?_, ?_⟩⟩
  · intro hat hn
    exact exec_dyLoop.trans (dyRun_jump hat (loopOp_skips hb hn))
  · intro k hk hat hn
    exact exec_dyLoop.trans (dyRun_go hat (loopOp_enters hb hk hn))
  · intro r hr hat
    rw [List.mem_pair] at hr
    obtain rfl | rfl := hr
    · rw [exec_dyLbz]
      exact dyRun_leaveOp (fun a => by simp) hb hat
    · rw [exec_dyLbnz]
      exact dyRun_leaveOp (fun a => by simp) hb hat
  · exact advanceFrom_no_loop
  · exact fun f rest => advanceFrom_inside
  · exact fun f rest => advanceFrom_repeats
  · exact fun f rest => advanceFrom_leaves

end Sys2Proof.Machine
end

section
/-! SUPPORT. The order of selection (R217, R218) as the order of a key, and what the sorts by it leave: the same entries, in selection order. -/
namespace Sys2Proof.Machine

/-! ### The order of values (R218) -/

/-- The real number that ±m × 2^e stands for. -/
noncomputable def finReal (neg : Bool) (m : Nat) (e : Int) : ℝ := (if neg then -(m : ℝ) else m) * 2 ^ e

/-- Where a floating-point value stands in the order of R218: the extended reals, and below them the one place of every NaN. -/
noncomputable def FVal.orderKey : FVal → WithBot EReal
  | .nan => ⊥
  | .inf true => (⊥ : EReal)
  | .inf false => (⊤ : EReal)
  | .fin neg m e => (finReal neg m e : EReal)

/-- A finite value as the integer that counts powers of two of a lower exponent. -/
theorem fscaled_mul_zpow (neg : Bool) (m : Nat) {e e0 : Int} (h : e0 ≤ e) : (fscaled neg m e e0 : ℝ) * 2 ^ e0 = finReal neg m e := by
  have hpow : (2 : ℝ) ^ (e - e0).toNat * 2 ^ e0 = 2 ^ e := by
    rw [← zpow_natCast, Int.toNat_of_nonneg (by omega), ← zpow_add₀ two_ne_zero, sub_add_cancel]
  rw [finReal, ← hpow]
  cases neg <;> simp [fscaled, mul_assoc]

section
variable (a b : Bool) (m n : Nat) (e g : Int)

theorem fltLt_fin_iff : fltLt (.fin a m e) (.fin b n g) = true ↔ finReal a m e < finReal b n g := by
  have hpos : (0 : ℝ) < 2 ^ min e g := by positivity
  rw [fltLt, decide_eq_true_eq, ← fscaled_mul_zpow a m (min_le_left e g), ← fscaled_mul_zpow b n (min_le_right e g), mul_lt_mul_iff_left₀ hpos, Int.cast_lt]

theorem fltEq_fin_iff : fltEq (.fin a m e) (.fin b n g) = true ↔ finReal a m e = finReal b n g := by
  have hpos : (0 : ℝ) < 2 ^ min e g := by positivity
  rw [fltEq, decide_eq_true_eq, ← fscaled_mul_zpow a m (min_le_left e g), ← fscaled_mul_zpow b n (min_le_right e g), mul_left_inj' hpos.ne', Int.cast_inj]
end

/-- One value is greater than another as R218 says it: NaNs lowest, then by the values' kinds, the finite ones as real numbers. -/
theorem float_gt_iff (u v : FVal) : (if u.isNan then false else if v.isNan then true else fltLt v u) = true ↔ v.orderKey < u.orderKey := by
  cases u with
  | nan => simp [FVal.isNan, FVal.orderKey]
  | inf a =>
    cases v with
    | nan => cases a <;> simp [FVal.isNan, FVal.orderKey, WithBot.bot_lt_coe, -WithBot.coe_top]
    | inf b => cases a <;> cases b <;> simp [FVal.isNan, FVal.orderKey, fltLt, -WithBot.coe_top]
    | fin b n g => cases a <;> simp [FVal.isNan, FVal.orderKey, fltLt, EReal.coe_lt_top, -WithBot.coe_top]
  | fin a m e =>
    cases v with
    | nan => simp [FVal.isNan, FVal.orderKey, WithBot.bot_lt_coe]
    | inf b => cases b <;> simp [FVal.isNan, FVal.orderKey, fltLt, EReal.bot_lt_coe, -WithBot.coe_top]
    | fin b n g => simp [FVal.isNan, FVal.orderKey, fltLt_fin_iff]

/-- Two values are equal as R218 says it: both NaNs, infinities of one sign, or finite and the same real number. -/
theorem float_eq_iff (u v : FVal) : ((u.isNan && v.isNan) || fltEq u v) = true ↔ u.orderKey = v.orderKey := by
  cases u with
  | nan =>
    cases v with
    | nan => simp [FVal.isNan, FVal.orderKey]
    | inf b => cases b <;> simp [FVal.isNan, FVal.orderKey, fltEq, -WithBot.coe_top]
    | fin b n g => simp [FVal.isNan, FVal.orderKey, fltEq]
  | inf a =>
    cases v with
    | nan => cases a <;> simp [FVal.isNan, FVal.orderKey, fltEq, -WithBot.coe_top]
    | inf b => cases a <;> cases b <;> simp [FVal.isNan, FVal.orderKey, fltEq, -WithBot.coe_top]
    | fin b n g => cases a <;> simp [FVal.isNan, FVal.orderKey, fltEq, -WithBot.coe_top]
  | fin a m e =>
    cases v with
    | nan => simp [FVal.isNan, FVal.orderKey, fltEq]
    | inf b => cases b <;> simp [FVal.isNan, FVal.orderKey, fltEq, -WithBot.coe_top]
    | fin b n g => simp [FVal.isNan, FVal.orderKey, fltEq_fin_iff]

/-- Where a value of a type stands in the order of R218. -/
noncomputable def valKey (ty : BitVec 4) (x : BitVec 32) : WithBot EReal := if isI32 ty then (((x.toInt : ℝ) : EReal) : WithBot EReal) else (f32 x).orderKey

theorem valGt_iff (ty : BitVec 4) (x y : BitVec 32) : valGt ty x y = true ↔ valKey ty y < valKey ty x := by
  cases h : isI32 ty with
  | true => simp [valGt, valKey, h, BitVec.slt_iff_toInt_lt]
  | false => simpa [valGt, valKey, h] using float_gt_iff (f32 x) (f32 y)

theorem valEq_iff (ty : BitVec 4) (x y : BitVec 32) : valEq ty x y = true ↔ valKey ty x = valKey ty y := by
  cases h : isI32 ty with
  | true => simp [valEq, valKey, h, BitVec.toInt_inj]
  | false => simpa [valEq, valKey, h] using float_eq_iff (f32 x) (f32 y)

/-! ### The order of entries (R217) -/

/-- The place of an entry in selection order: greater values first, then lower indices. -/
noncomputable def selKey (ty : BitVec 4) (a : SelEntry) : (WithBot EReal)ᵒᵈ ×ₗ ℕ := toLex (OrderDual.toDual (valKey ty a.1), a.2.toNat)

theorem precedes_iff (ty : BitVec 4) (a b : SelEntry) : precedes ty a b = true ↔ selKey ty a < selKey ty b := by
  simp [precedes, selKey, Prod.Lex.toLex_lt_toLex, valGt_iff, valEq_iff, BitVec.ult_iff_lt, BitVec.lt_def]

theorem not_precedes_iff (ty : BitVec 4) (a b : SelEntry) : precedes ty b a = false ↔ selKey ty a ≤ selKey ty b := by
  rw [← Bool.not_eq_true, precedes_iff, not_lt]

/-- A list of entries in selection order: none is preceded by a later one. -/
def inSelOrder (ty : BitVec 4) (l : List SelEntry) : Prop := l.Pairwise fun x y => precedes ty y x = false

/-! ### Sorting by insertion -/

section
variable {α : Type} {lt : α → α → Bool}

theorem insertBy_perm (lt : α → α → Bool) (x : α) (l : List α) : (insertBy lt x l).Perm (x :: l) := by
  induction l with
  | nil => exact .refl _
  | cons y ys ih =>
    rw [insertBy]
    split
    · exact .refl _
    · exact (ih.cons y).trans (.swap x y ys)

theorem sortBy_perm (lt : α → α → Bool) (l : List α) : (sortBy lt l).Perm l := by
  induction l with
  | nil => exact .refl _
  | cons x xs ih => exact (insertBy_perm lt x _).trans (ih.cons x)

section
variable {κ : Type} [LinearOrder κ] {key : α → κ} (hkey : ∀ x y, lt x y = true ↔ key x < key y)
include hkey

theorem insertBy_pairwise (x : α) {l : List α} (h : l.Pairwise fun x y => key x ≤ key y) : (insertBy lt x l).Pairwise fun x y => key x ≤ key y := by
  induction l with
  | nil => exact List.pairwise_singleton _ x
  | cons y ys ih =>
    obtain ⟨hy, hys⟩ := List.pairwise_cons.mp h
    rw [insertBy]
    split
    case isTrue hlt =>
      have hxy : key x ≤ key y := ((hkey x y).mp hlt).le
      exact List.pairwise_cons.mpr ⟨List.forall_mem_cons.mpr ⟨hxy, fun z hz => hxy.trans (hy z hz)⟩, h⟩
    case isFalse hlt =>
      have hyx : key y ≤ key x := not_lt.mp (mt (hkey x y).mpr hlt)
      refine List.pairwise_cons.mpr ⟨fun z hz => ?_, ih hys⟩
      obtain rfl | hz := List.mem_cons.mp ((insertBy_perm lt x ys).mem_iff.mp hz)
      · exact hyx
      · exact hy z hz

/-- A sort by a comparison that a key decides leaves the keys in ascending order. -/
theorem sortBy_pairwise (l : List α) : (sortBy lt l).Pairwise fun x y => key x ≤ key y := by
  induction l with
  | nil => exact .nil
  | cons x xs ih => exact insertBy_pairwise hkey x ih
end

/-- The check of neighbours passes on a list in order. -/
theorem sortedBy_of_pairwise {l : List α} (h : l.Pairwise fun x y => lt y x = false) : sortedBy lt l = true := by
  induction l with
  | nil => rfl
  | cons x xs ih =>
    obtain ⟨hx, hxs⟩ := List.pairwise_cons.mp h
    cases xs with
    | nil => rfl
    | cons y ys => simp [sortedBy, hx y List.mem_cons_self, ih hxs]

/-- Ranks paired with the entries of a list and sorted with them only reorder it. -/
theorem sortBy_zip_perm (lt : Nat × α → Nat × α → Bool) {ranks : List Nat} {l : List α} (h : l.length ≤ ranks.length) :
    ((sortBy lt (List.zip ranks l)).map (·.2)).Perm l := by
  have hsnd : (List.zip ranks l).map (·.2) = l := List.map_snd_zip h
  exact ((sortBy_perm lt _).map _).trans (.of_eq hsnd)
end

/-! ### Selection order -/

theorem sortBy_precedes_inSelOrder (ty : BitVec 4) (l : List SelEntry) : inSelOrder ty (sortBy (precedes ty) l) :=
  (sortBy_pairwise (precedes_iff ty) l).imp fun h => (not_precedes_iff ty _ _).mpr h

theorem selSort_perm (ty : BitVec 4) (l : List SelEntry) : (selSort ty l).Perm l := sortBy_zip_perm _ (by simp)

/-- The comparison of `selSort` is that of the entries' places, with the free rank below them. -/
theorem selSort_lt_iff (ty : BitVec 4) (a b : Nat × SelEntry) :
    (precedes ty a.2 b.2 || (!precedes ty b.2 a.2 && decide (a.1 < b.1))) = true ↔ toLex (selKey ty a.2, a.1) < toLex (selKey ty b.2, b.1) := by
  have hle : selKey ty a.2 ≤ selKey ty b.2 ↔ selKey ty a.2 < selKey ty b.2 ∨ selKey ty a.2 = selKey ty b.2 := le_iff_lt_or_eq
  simp only [Bool.or_eq_true, Bool.and_eq_true, Bool.not_eq_true', decide_eq_true_eq, precedes_iff, not_precedes_iff, Prod.Lex.toLex_lt_toLex]
  tauto

theorem selSort_inSelOrder (ty : BitVec 4) (l : List SelEntry) : inSelOrder ty (selSort ty l) := by
  refine List.pairwise_map.mpr ((sortBy_pairwise (selSort_lt_iff ty) _).imp fun {a b} h => ?_)
  exact (not_precedes_iff ty _ _).mpr (Prod.Lex.monotone_fst _ _ h)

/-- The merge of two lists keeps their pairs, whatever order it leaves them in. -/
theorem mergedPairs_perm (ty : BitVec 4) {x y : List SelEntry} (h : (x ++ y).length ≤ 128) : (mergedPairs ty x y).Perm (x ++ y) := by
  rw [mergedPairs]
  split
  · exact selSort_perm ty _
  · exact sortBy_zip_perm _ (by simpa using h)

/-- Of two lists in selection order it is their pairs in selection order (R220). -/
theorem mergedPairs_inSelOrder {ty : BitVec 4} {x y : List SelEntry} (hx : inSelOrder ty x) (hy : inSelOrder ty y) : inSelOrder ty (mergedPairs ty x y) := by
  rw [mergedPairs, sortedBy_of_pairwise hx, sortedBy_of_pairwise hy]
  exact selSort_inSelOrder ty _

/-! ### What a selection holds (R225, R226, R230) -/

/-- The flags above bit 0 (Table 9.2) are even numbers, so they do not reach it. -/
theorem flags_bit_zero (p q r : Prop) [Decidable p] [Decidable q] [Decidable r] (m : Nat) :
    (BitVec.ofNat 64 ((if p then 1 else 0) + (if q then 2 else 0) + (if r then 4 else 0) + m * 2 ^ 16)).getLsbD 0 = decide p := by
  rw [BitVec.getLsbD_ofNat, Nat.testBit_zero]
  split_ifs <;> simp [*] <;> omega

section
variable (ty : BitVec 4) (k : Nat) (es : List SelEntry) (dups : Nat) (conflict : Bool) (wheyIn : BitVec 64)

theorem select_considered : (select ty k es dups conflict wheyIn).considered = es.length := (sortBy_perm (precedes ty) es).length_eq

theorem select_count : (select ty k es dups conflict wheyIn).count = (select ty k es dups conflict wheyIn).sel.length := rfl

theorem select_sel_length : (select ty k es dups conflict wheyIn).sel.length = min k es.length := by
  simp [select, (sortBy_perm (precedes ty) es).length_eq]

theorem select_sel_inSelOrder : inSelOrder ty (select ty k es dups conflict wheyIn).sel :=
  (sortBy_precedes_inSelOrder ty es).sublist (List.take_sublist k _)

/-- Bit 0 of the flags, SHORT: fewer entries than K. -/
theorem select_short : (select ty k es dups conflict wheyIn).flags.getLsbD 0 = decide (es.length < k) := by
  have hlen : ((sortBy (precedes ty) es).take k).length < k ↔ es.length < k := by
    rw [List.length_take, (sortBy_perm (precedes ty) es).length_eq, min_lt_iff]
    omega
  rw [select, flags_bit_zero, decide_eq_decide, hlen]
end

/-- What is left after the duplicates are removed has each index once (R230). -/
theorem dedup_distinct (ty : BitVec 4) (l : List SelEntry) : (dedup ty l).1.Pairwise fun x y => x.2 ≠ y.2 := by
  induction l with
  | nil => exact .nil
  | cons x xs ih =>
    refine List.pairwise_cons.mpr ⟨fun y hy => ?_, ih.filter _⟩
    have hne : y.2 ≠ x.2 := by simpa using (List.mem_filter.mp hy).2
    exact hne.symm

theorem select_distinct {ty : BitVec 4} {k : Nat} {es : List SelEntry} {dups : Nat} {conflict : Bool} {wheyIn : BitVec 64}
    (h : es.Pairwise fun x y => x.2 ≠ y.2) : (select ty k es dups conflict wheyIn).sel.Pairwise fun x y => x.2 ≠ y.2 :=
  ((sortBy_perm (precedes ty) es).symm.pairwise h fun hne => hne.symm).sublist (List.take_sublist k _)

end Sys2Proof.Machine
end

section
/-! PROOFS. Selection (O21): what vsortkv, vmergekv, topk and tkmerge do to a tile when their operands pass, and the statement put together from them. -/
namespace Sys2Proof.Machine

/-! ### The instructions on a tile (Table 4.10, R224–R232) -/

theorem pairsOf_length (v i : BitVec 2048) : (pairsOf v i).length = 64 := by simp [pairsOf]

theorem tyWide_iff (ty : BitVec 4) : tyWide ty = true ↔ ty = 7 := by
  rw [tyWide, decide_eq_true_eq, ← BitVec.toNat_inj]
  rfl

theorem tsOk_of_le {a n : Nat} (h : a + n ≤ 0x1F0000) : tsOk a n = true := decide_eq_true h

theorem overlapRange_of_apart {x n y m : Nat} (h : x + n ≤ y ∨ y + m ≤ x) : topkOp.overlapRange x n y m = false := by
  simp only [topkOp.overlapRange, Bool.and_eq_false_iff, decide_eq_false_iff_not]
  omega

/-- The entries of the row that topk reads (R224). -/
def Tile.rowEntries (t : Tile) (w : DyWord) : List SelEntry :=
  let c := (t.sreg (DyC w)).toNat
  let size := if w.t = 7 then 2 else 4
  (List.range (c % 2 ^ 17)).map fun i =>
    let x := ofBytesLE (t.read ((t.sreg w.a).toNat + size * i) size)
    (BitVec.ofNat 32 (if w.t = 7 then x * 65536 else x), BitVec.ofNat 32 (c / 2 ^ 48 % 2 ^ 15 * 65536 + i))

theorem rowEntries_length (t : Tile) (w : DyWord) : (t.rowEntries w).length = (t.sreg (DyC w)).toNat % 2 ^ 17 := by simp [Tile.rowEntries]

/-- The entries of the records that tkmerge reads, before duplicates are removed (R229). -/
def Tile.recordEntries (t : Tile) (w : DyWord) : List SelEntry :=
  let c := (t.sreg (DyC w)).toNat
  let l := c / 2 ^ 16 % 2 ^ 11
  (List.range (c / 2 ^ 32 % 2 ^ 9)).flatMap fun i =>
    let p := (t.sreg w.a).toNat + i * recordBytes l
    (List.range (min (ofBytesLE (t.read (p + 0x14) 2)) l)).map fun j => (t.loadWord (p + 0x40 + 4 * j), t.loadWord (p + 0x40 + 4 * pad16 l + 4 * j))

/-- The tile after a selection of length K: its record, the working registers zero, the flags in sD (R101). -/
def Tile.selected (t : Tile) (w : DyWord) (k : Nat) (r : Selection) : Tile :=
  ((t.writeRecord w.t (t.sreg w.b).toNat k r).clearWork).setS w.d r.flags

section
variable {t : Tile} {w : DyWord}

theorem vsortkvOp_go (hv : t.busyV [w.d.toNat, w.a.toNat] = false) :
    vsortkvOp w t = .go (t.setPairs w.d w.a (selSort w.t (pairsOf (t.vreg w.d) (t.vreg w.a)))) := by
  rw [vsortkvOp, if_neg (by simp [hv])]

theorem vmergekvOp_go (hv : t.busyV [w.d.toNat, w.a.toNat, w.b.toNat, (DyC w).toNat] = false) :
    let l := mergedPairs w.t (pairsOf (t.vreg w.d) (t.vreg w.a)) (pairsOf (t.vreg w.b) (t.vreg (DyC w)))
    vmergekvOp w t = .go ((t.setPairs w.d w.a (l.take 64)).setPairs w.b (DyC w) (l.drop 64)) := by
  rw [vmergekvOp, if_neg (by simp [hv])]

section
variable {a b c : Nat} (ha : (t.sreg w.a).toNat = a) (hb : (t.sreg w.b).toNat = b) (hc : (t.sreg (DyC w)).toNat = c)
  (hs : t.busyS [w.d, w.a, w.b, DyC w] = false) (hv : t.busyV workRegs = false)
include hc hs hv

section
variable {n k : Nat} (hn : c % 2 ^ 17 = n) (hk : c / 2 ^ 32 % 2 ^ 11 = k) (hk1 : 1 ≤ k) (hk2 : k ≤ 1024)
include hn hk hk1 hk2

theorem topkOp_tooLong (hlong : 65536 < n) : topkOp w t = .go ((t.clearWork).setS w.d 8) := by
  subst hc
  have hrange : ¬ (k = 0 ∨ 1024 < k ∨ n = 0) := by omega
  simp only [topkOp, hk, hn, hs, hv, Bool.or_self, Bool.false_eq_true, if_false, hrange, hlong, if_true]

include ha hb in
/-- topk on a row that passes the checks of R232 and that no mark touches. -/
theorem topkOp_go {size : Nat} (hsize : (if w.t = 7 then 2 else 4) = size) (hn1 : 1 ≤ n) (hn2 : n ≤ 65536) (ha64 : a % 64 = 0) (hb64 : b % 64 = 0) (hin : a + n * size ≤ 0x1F0000)
    (hout : b + recordBytes k ≤ 0x1F0000) (hapart : a + n * size ≤ b ∨ b + recordBytes k ≤ a) (hmark : t.marked a (n * size) = false) :
    topkOp w t = .go (t.selected w k (select w.t k (t.rowEntries w) 0 false 0)) := by
  subst ha hb hc hsize
  have hrange : ¬ (k = 0 ∨ 1024 < k ∨ n = 0) := by omega
  rw [Tile.rowEntries]
  simp only [topkOp, hk, hn, tyWide_iff, hs, hv, Bool.or_self, Bool.false_eq_true, if_false, hrange, hn2.not_gt, ha64, hb64, ne_eq, not_true, tsOk_of_le hin,
    tsOk_of_le hout, Bool.not_true, overlapRange_of_apart hapart, hmark]
  rfl
end

include ha hb in
/-- tkmerge on records that pass the checks of R232 and that no mark touches: it selects from their entries, of which those with an index met earlier in
selection order are removed. -/
theorem tkmergeOp_go {k l m : Nat} (hk : c % 2 ^ 11 = k) (hl : c / 2 ^ 16 % 2 ^ 11 = l) (hm : c / 2 ^ 32 % 2 ^ 9 = m) (hk1 : 1 ≤ k) (hk2 : k ≤ 1024) (hl1 : 1 ≤ l)
    (hl2 : l ≤ 1024) (hm1 : 1 ≤ m) (hm2 : m ≤ 256) (ha64 : a % 64 = 0) (hb64 : b % 64 = 0) (hin : a + m * recordBytes l ≤ 0x1F0000) (hout : b + recordBytes k ≤ 0x1F0000)
    (hapart : a + m * recordBytes l ≤ b ∨ b + recordBytes k ≤ a)
    (hmark : ∀ i < m, let p := a + i * recordBytes l; let e := min (ofBytesLE (t.read (p + 0x14) 2)) l
      t.marked p 64 = false ∧ t.markedSome (p + 0x40) (4 * e) = false ∧ t.markedSome (p + 0x40 + 4 * pad16 l) (4 * e) = false) :
    let d := dedup w.t (selSort w.t (t.recordEntries w))
    ∃ wheyIn, tkmergeOp w t = .go (t.selected w k (select w.t k d.1 d.2.1 d.2.2 wheyIn)) := by
  subst ha hb hc
  have hrange : ¬ (k = 0 ∨ 1024 < k ∨ l = 0 ∨ 1024 < l ∨ m = 0 ∨ 256 < m) := by omega
  have hclean : (((List.range m).map fun i => (t.sreg w.a).toNat + i * recordBytes l).any fun r => t.marked r 64 ||
      t.markedSome (r + 0x40) (4 * min (ofBytesLE (t.read (r + 0x14) 2)) l) || t.markedSome (r + 0x40 + 4 * pad16 l) (4 * min (ofBytesLE (t.read (r + 0x14) 2)) l)) = false := by
    rw [List.any_map, List.any_eq_false]
    intro i hi
    obtain ⟨hhead, hvals, hidx⟩ := hmark i (List.mem_range.mp hi)
    simp [hhead, hvals, hidx]
  rw [Tile.recordEntries]
  simp only [tkmergeOp, hk, hl, hm, hs, hv, Bool.or_self, Bool.false_eq_true, if_false, hrange, ha64, hb64, ne_eq, not_true, tsOk_of_le hin,
    tsOk_of_le hout, Bool.not_true, overlapRange_of_apart hapart, hclean, List.flatMap_map]
  exact ⟨_, rfl⟩
end
end

/-! ### The instructions at the pc -/

section
variable {t : TileId} {w : DyWord} {s : State}

theorem exec_dyVsortkv : exec (.dyVsortkv t w) s = dyRun 0xB0 t w (vsortkvOp w) s := rfl
theorem exec_dyVmergekv : exec (.dyVmergekv t w) s = dyRun 0xB1 t w (vmergekvOp w) s := rfl
theorem exec_dyTopk : exec (.dyTopk t w) s = dyRun 0xB2 t w (topkOp w) s := rfl
theorem exec_dyTkmerge : exec (.dyTkmerge t w) s = dyRun 0xB3 t w (tkmergeOp w) s := rfl
end

/-! ### The statement -/

/-- Settles O21: the sorts leave the same pairs in selection order; what topk and tkmerge write is `select` of the entries that they read. -/
theorem sortSelectResults : Obligations.SortSelectResults := by
  refine ⟨fun t w s _ => ⟨fun hat hv => ?_, fun hat hv => ?_⟩, fun t w s _ hs hv => ⟨fun hat hk1 hk2 hn1 => ⟨fun hlong => ?_, ?_⟩, ?_⟩⟩
  · exact ⟨_, exec_dyVsortkv.trans (dyRun_go hat (vsortkvOp_go hv)), selSort_perm _ _, selSort_inSelOrder _ _⟩
  · exact ⟨_, exec_dyVmergekv.trans (dyRun_go hat (vmergekvOp_go hv)), mergedPairs_perm _ (by simp [pairsOf_length]), mergedPairs_inSelOrder⟩
  · exact exec_dyTopk.trans (dyRun_go hat (topkOp_tooLong rfl hs hv rfl rfl hk1 hk2 hlong))
  · intro hn2 ha64 hb64 hin hout hapart hmark
    have hgo := topkOp_go rfl rfl rfl hs hv rfl rfl hk1 hk2 rfl hn1 hn2 ha64 hb64 hin hout hapart hmark
    have hlen := rowEntries_length s.tiles[t] w
    refine ⟨_, exec_dyTopk.trans (dyRun_go hat hgo), ?_, ?_, ?_, rfl, select_sel_inSelOrder .., ?_⟩
    · rw [select_count, select_sel_length, hlen]
    · rw [select_sel_length, hlen]
    · rw [select_considered, hlen]
    · rw [select_short, hlen]
  · intro k l m hat hk1 hk2 hl1 hl2 hm1 hm2 ha64 hb64 hin hout hapart hmark
    obtain ⟨wheyIn, hgo⟩ := tkmergeOp_go rfl rfl rfl hs hv rfl rfl rfl hk1 hk2 hl1 hl2 hm1 hm2 ha64 hb64 hin hout hapart hmark
    refine ⟨_, exec_dyTkmerge.trans (dyRun_go hat hgo), ?_, rfl, select_sel_inSelOrder .., select_distinct (dedup_distinct _ _)⟩
    rw [select_count, select_sel_length, select_considered]

end Sys2Proof.Machine
end
